-- ==== Sys2Proof/Word.lean ====
section
/-! DEFINITION. The words and the numbered places of the TP16. -/
namespace Sys2Proof

/-- Eight bits: a byte of a message, of local memory or of the configuration memory. -/
abbrev Byte := BitVec 8

/-- Sixteen bits: a register of the host port, a mark, a ring index, a mask of stations. -/
abbrev Word := BitVec 16

/-- A station number. -/
abbrev Station := Fin 16

/-- The index of a transaction entry. -/
abbrev Tag := Fin 16

/-- A channel number. -/
abbrev Chan := Fin 8

/-- The number of an inbound slot. -/
abbrev SlotNo := Fin 8

/-- The number of an exposure window. -/
abbrev WindowNo := Fin 8

/-- Every station number, in increasing order. -/
def allStations : List Station := [0, 1, 2, 3, 4, 5, 6, 7, 8, 9, 10, 11, 12, 13, 14, 15]

/-- Every tag, in increasing order. -/
def allTags : List Tag := [0, 1, 2, 3, 4, 5, 6, 7, 8, 9, 10, 11, 12, 13, 14, 15]

/-- Every channel number, in increasing order. -/
def allChans : List Chan := [0, 1, 2, 3, 4, 5, 6, 7]

/-- Every inbound slot number, in increasing order. -/
def allSlots : List SlotNo := [0, 1, 2, 3, 4, 5, 6, 7]

/-- Every window number, in increasing order. -/
def allWindows : List WindowNo := [0, 1, 2, 3, 4, 5, 6, 7]

end Sys2Proof
end

