-- ==== Sys2Proof/Config.lean ====
section
/-! DEFINITION. What is fixed in the part: sizes of its collections, codes of its registers. The values that the
configuration memory sets (own number, N, C, timers) are State, read at start (R1, R2). `sdoUnstated` is the one free
value: the spec leaves open a level that the part drives, and no state depends on it. -/
namespace Sys2Proof.Config

/-- IDENT (R171's window table). -/
def ident : Word := 0x7A16#16

/-- Inbound slots (R71) and the bound of R60. -/
def inboundSlots : Nat := 8

/-- Refusal places of the credit unit (R66). -/
def refusalPlaces : Nat := 4

/-- Entries addressed to one peer, and owned by one channel without ORDERED (R111, R128). -/
def entriesPerPeer : Nat := 4

/-- Served pairs kept per peer (R78). -/
def servedPairs : Nat := 4

/-- The clash count at which the station is isolated (R13, R35). -/
def clashLimit : Nat := 3

/-- One past the highest local address (R158). -/
def localSize : Nat := 0x1000000

/-- One past the highest remote offset (R102). -/
def offsetSize : Nat := 0x100000

/-- The destination byte that addresses every station. -/
def toAll : Byte := 0xFF#8

/-- The level of SDO while SCS is low and R171 states none: before the falling edge that follows the eighth rising edge,
after the sixteen bits of a read, and in a write. A free value, by the number of falling edges passed (log 31). -/
opaque sdoUnstated : Nat → Bool

/-! Addresses of the host registers (section 11.2). -/

def addrCmd : BitVec 7 := 0x08#7
def addrAttn : BitVec 7 := 0x18#7
def addrAttnen : BitVec 7 := 0x19#7
def addrRingprod : BitVec 7 := 0x1A#7
def addrRingcons : BitVec 7 := 0x1B#7

/-! Command codes (R175). -/

def codeJoin : Byte := 0x01#8
def codeLeave : Byte := 0x02#8
def codeClearIsolation : Byte := 0x03#8
def codeSoftReset : Byte := 0x04#8
def codeSetWindow : Byte := 0x05#8
def codeSetRing : Byte := 0x06#8
def codeStart : Byte := 0x07#8
def codeAbort : Byte := 0x08#8
def codeClear : Byte := 0x09#8
def codeAdvanceMark : Byte := 0x0A#8
def codeReadChannel : Byte := 0x10#8
def codeReadPeer : Byte := 0x11#8
def codeReadWindow : Byte := 0x12#8
def codeReadWatch : Byte := 0x13#8
def codeReadPeerChanges : Byte := 0x14#8

/-- The codes that name a command (R175). -/
def commandCodes : List Byte :=
  [codeJoin, codeLeave, codeClearIsolation, codeSoftReset, codeSetWindow, codeSetRing, codeStart, codeAbort,
   codeClear, codeAdvanceMark, codeReadChannel, codeReadPeer, codeReadWindow, codeReadWatch, codeReadPeerChanges]

/-- The register addresses whose writes are rows of their own: CMD, ATTN, ATTNEN and RINGCONS. -/
def ownWriteAddresses : List (BitVec 7) := [addrCmd, addrAttn, addrAttnen, addrRingcons]

end Sys2Proof.Config
end

