-- ==== Sys2Proof/Syntax.lean ====
section
/-! DEFINITION. The commands of the block: one constructor for each row of spec/opcode_table.json. -/
namespace Sys2Proof

/-- How a local access ended (R159). `data` are the bytes a read delivered, in address order: a list shorter than the
access stands for the list followed by zeros, and what stands beyond the access is not used; for a write it is not
read. With `error`, `cycle` is the index of the failing bus cycle; `low` and `high` say, of a write, whether the memory
took the byte of that cycle on the low and on the high lane (R159: it may or may not have); `data` are the bytes that the
cycles of a read before the failing one delivered. -/
inductive AccessEnd where
  | ok (data : List Byte)
  | error (cycle : Nat) (low high : Bool) (data : List Byte)
deriving DecidableEq, Repr

/-- The commands. The operands of a host command are bits 8 to 15 of CMD (R174); its parameters stand in the parameter
registers. The operands of a message heard are the fields of the message, as bytes on the bus. -/
inductive Instr where
  -- resets and start
  /-- `cut`: for each byte of a write access in progress, in address order, whether it was written (R5). -/
  | powerOn (cut : List Bool)
  /-- `cut`: as for `powerOn`. -/
  | resetPinAssert (cut : List Bool)
  | resetEnd
  /-- The eight answers of the configuration memory; `none` is a byte that was not answered (R1). -/
  | configurationReadEnd (answers : List (Option Byte))
  -- host commands
  | join (operand : Byte)
  | leave (operand : Byte)
  | clearIsolation (operand : Byte)
  | softReset (operand : Byte)
  | setWindow (operand : Byte)
  | setRing (operand : Byte)
  | start (operand : Byte)
  | abort (operand : Byte)
  | clear (operand : Byte)
  | advanceMark (operand : Byte)
  | readChannel (operand : Byte)
  | readPeer (operand : Byte)
  | readWindow (operand : Byte)
  | readWatch (operand : Byte)
  | readPeerChanges (operand : Byte)
  | unknownCommand (code operand : Byte)
  -- other host writes
  | consumerWrite (value : Word)
  | attnWrite (value : Word)
  | attnenWrite (value : Word)
  | registerWrite (addr : BitVec 7) (value : Word)
  -- the line, and messages heard
  | activityBegin
  | badCheckActivity
  | malformedMessage (source : Byte)
  | joinHeard (source inc : Byte) (mark : Word)
  | presenceHeard (source inc : Byte) (mark : Word)
  | leaveHeard (source inc : Byte) (mark : Word)
  | askHeard (source inc wanted : Byte)
  | grantHeard (source inc credits echo : Byte)
  | writeHeard (source inc tag seq low window : Byte) (offset : BitVec 24) (payload : List Byte)
  | readHeard (source inc tag seq low window : Byte) (offset : BitVec 24) (length : Byte)
  | ackHeard (source inc tag seq echo status : Byte)
  | dataHeard (source inc tag seq echo status : Byte) (payload : List Byte)
  -- steps of the part itself
  | granting
  /-- `k`: the number of the bus slot, counted from the last activity end (R26). -/
  | busSlotStart (k : Nat)
  /-- `slotTimes`: whole slot times since the end from which the guard is measured (R27). -/
  | coldGuardExpiry (slotTimes : Nat)
  | transmissionEnd
  | transmissionClash
  | leaveQueued
  -- timers
  | joinListenTimerExpiry
  | presenceTimerExpiry
  | silenceTimerExpiry (peer : Station)
  | askTimerExpiry (peer : Station)
  | replyTimerExpiry (tag : Tag)
  | waitTimerExpiry (chan : Chan)
  -- steps of the part itself
  | asking (peer : Station)
  | creditHanding (peer : Station)
  | entryAllocation
  | descriptorEnd (chan : Chan)
  | accessGrant
  -- ends of local accesses
  | descriptorFetchEnd (outcome : AccessEnd)
  | loadEnd (outcome : AccessEnd)
  | storeEnd (outcome : AccessEnd)
  | inboundAccessEnd (outcome : AccessEnd)
  | recordWriteIssue
  | recordWriteEnd (outcome : AccessEnd)
  -- messages that are not for this station
  | ownNumberHeard
  | sourceNOrHigherHeard (source : Byte)
  | overheardMessage (dest source kind inc : Byte)
deriving DecidableEq, Repr

end Sys2Proof
end

