-- ==== Sys2Proof/WellFormed.lean ====
section
/-! DEFINITION. Which terms of `Instr` are the event their row names (R1, R21, R172, R174), as far as this can be judged
without the state. What depends on the state (a source equal to the own number, or N and higher) is judged by R22 in
the meaning. -/
namespace Sys2Proof

/-- The source byte of a heard message, 0 to 15 (section 2.2). -/
def wfSource (source : Byte) : Bool := source.toNat < 16

/-- An ASK's wanted count or a GRANT's credits, 1 to 4 (R21). -/
def wfCredits (n : Byte) : Bool := 1 ≤ n.toNat && n.toNat ≤ 4

/-- Tag 0 to 15 (R21). -/
def wfTag (tag : Byte) : Bool := tag.toNat < 16

/-- Tag, window, offset and length of a WRITE or READ (R21). -/
def wfRequest (tag window : Byte) (offset : BitVec 24) (length : Nat) : Bool :=
  wfTag tag && window.toNat ≤ 7 && offset.toNat < Config.offsetSize && 1 ≤ length && length ≤ 64

/-- Tag and status of an ACK or DATA (R21). -/
def wfReply (tag status : Byte) : Bool := wfTag tag && status.toNat ≤ 4

/-- Length of a DATA for its status: 1 to 64 with DONE, 0 with any other (R21). -/
def wfDataLength (status : Byte) (length : Nat) : Bool :=
  if status = 0#8 then 1 ≤ length && length ≤ 64 else length = 0

/-- The term is the event its row names. -/
def Instr.wellFormed : Instr → Bool
  | .configurationReadEnd answers => answers.length = 8
  | .unknownCommand code _ => !Config.commandCodes.contains code
  | .registerWrite addr _ => !Config.ownWriteAddresses.contains addr
  | .joinHeard source _ _ => wfSource source
  | .presenceHeard source _ _ => wfSource source
  | .leaveHeard source _ _ => wfSource source
  | .askHeard source _ wanted => wfSource source && wfCredits wanted
  | .grantHeard source _ credits _ => wfSource source && wfCredits credits
  | .writeHeard source _ tag _ _ window offset payload =>
      wfSource source && wfRequest tag window offset payload.length
  | .readHeard source _ tag _ _ window offset length =>
      wfSource source && wfRequest tag window offset length.toNat
  | .ackHeard source _ tag _ _ status => wfSource source && wfReply tag status
  | .dataHeard source _ tag _ _ status payload =>
      wfSource source && wfReply tag status && wfDataLength status payload.length
  | .overheardMessage dest source kind _ =>
      wfSource source && dest.toNat < 16 && dest != source && 4 ≤ kind.toNat && kind.toNat ≤ 9
  | .powerOn _ | .resetPinAssert _ | .resetEnd | .join _ | .leave _ | .clearIsolation _ | .softReset _ | .setWindow _
  | .setRing _ | .start _ | .abort _ | .clear _ | .advanceMark _ | .readChannel _ | .readPeer _ | .readWindow _
  | .readWatch _ | .readPeerChanges _ | .consumerWrite _ | .attnWrite _ | .attnenWrite _ | .activityBegin
  | .badCheckActivity | .malformedMessage _ | .granting | .busSlotStart _ | .coldGuardExpiry _ | .transmissionEnd
  | .transmissionClash | .leaveQueued | .joinListenTimerExpiry | .presenceTimerExpiry | .silenceTimerExpiry _
  | .askTimerExpiry _ | .replyTimerExpiry _ | .waitTimerExpiry _ | .asking _ | .creditHanding _ | .entryAllocation
  | .descriptorEnd _ | .accessGrant | .descriptorFetchEnd _ | .loadEnd _ | .storeEnd _ | .inboundAccessEnd _
  | .recordWriteIssue | .recordWriteEnd _ | .ownNumberHeard | .sourceNOrHigherHeard _ => true

end Sys2Proof
end

