-- ==== Sys2Proof/Decode.lean ====
section
/-! DEFINITION. The table (spec/opcode_table.json) gives none of its rows any bits: every row's "fields" is empty and no
row has "fixed". No word therefore spells a command. (The codes a host writes into CMD stand in Config.lean; the parser
of peer bus messages stands in Machine/Wire.lean.) -/
namespace Sys2Proof

/-- The command that a word spells by the table's bits: none, since no row has bits. -/
def decodeTableWord (_nbits _w : Nat) : Option Instr := none

end Sys2Proof
end

