-- ==== Sys2Proof/Machine/Bits.lean ====
section
/-! DEFINITION. Byte orders, packing of fields into register words, and the modular comparisons of 00_scope.md. -/
namespace Sys2Proof.Machine

/-- Least significant byte first: the order of descriptors and completion records. -/
def natOfBytes : List Byte → Nat
  | [] => 0
  | b :: rest => b.toNat + 256 * natOfBytes rest

/-- `n` in `len` bytes, least significant byte first. -/
def bytesOfNat : Nat → Nat → List Byte
  | 0, _ => []
  | len + 1, n => BitVec.ofNat 8 n :: bytesOfNat len (n / 256)

/-- `len` bytes of `data` from position `i`; positions beyond the end read 0. -/
def bytesAt (data : List Byte) (i len : Nat) : List Byte := (List.range len).map fun j => data.getD (i + j) 0#8

/-- The first `len` bytes of `data`, followed by zeros where `data` is shorter. -/
def fitBytes (len : Nat) (data : List Byte) : List Byte := bytesAt data 0 len

/-- A register word from fields given as (lowest bit, value), each value fitting its field. -/
def packWord (fields : List (Nat × Nat)) : Word :=
  BitVec.ofNat 16 ((fields.map fun f => f.2 * 2 ^ f.1).sum)

/-- 1 for true, for a bit of a register. -/
def bit (b : Bool) : Nat := if b then 1 else 0

/-- A register word from its low and its high byte. -/
def wordOfBytes (low high : Byte) : Word := high ++ low

/-- The low byte of a register word. -/
def lowByte (w : Word) : Byte := w.extractLsb' 0 8

/-- The high byte of a register word. -/
def highByte (w : Word) : Byte := w.extractLsb' 8 8

/-- Bits 0 to 15 of a count shown in two view words. -/
def lowWord (n : Nat) : Word := BitVec.ofNat 16 n

/-- Bits 16 to 31 of a count shown in two view words. -/
def highWord (n : Nat) : Word := BitVec.ofNat 16 (n / 65536)

/-- A two's complement value of 32 bits. -/
def signed32 (n : Nat) : Int := if n < 0x80000000 then (n : Int) else (n : Int) - 0x100000000

/-- Sequence `s` is before sequence `w` (00_scope.md, modular comparisons; R73). -/
def seqBefore (s w : Byte) : Bool := 128 ≤ (s - w).toNat

/-- Mark `a` is at or beyond mark `b` (00_scope.md, modular comparisons; section 9.2). -/
def markReached (a b : Word) : Bool := (a - b).toNat < 32768

/-- Whether a mask of stations names `p`. -/
def inMask (m : Word) (p : Station) : Bool := m.getLsbD p.val

/-- The mask that names `p` alone. -/
def maskOf (p : Station) : Word := BitVec.ofNat 16 (2 ^ p.val)

/-- `xs` without `x`, the order of the rest kept ("Removed", 00_scope.md). -/
def without {α : Type} [DecidableEq α] (xs : List α) (x : α) : List α := xs.filter fun y => y ≠ x

end Sys2Proof.Machine
end

