-- ==== Sys2Proof/Machine/State.lean ====
section
/-! DEFINITION. The state of the TP16, block by block (00_scope.md, block diagram), and its value right after reset. -/
namespace Sys2Proof.Machine

/-! ## Configuration latch -/

/-- The two kinds of start reset (section 1.2). -/
inductive StartResetKind where
  | powerOn
  | pin
deriving DecidableEq, Repr

/-- Where the part stands with its start: in a start reset (R5), reading the configuration memory (R1, R6), or after
that read and its check. -/
inductive Phase where
  | inReset (kind : StartResetKind)
  | reading
  | running
deriving DecidableEq, Repr

/-- Reset cause (R4). -/
inductive ResetCause where
  | powerOn
  | pin
  | soft
deriving DecidableEq, Repr

/-- Check result (R2), with the position of the first failing byte. -/
inductive CheckResult where
  | good
  | badSum
  | badField (position : Nat)
deriving DecidableEq, Repr

/-- The eight bytes of the configuration memory, by field (section 1.1). -/
structure ConfigBytes where
  stationNumber : Byte
  stationCount : Byte
  rateAndCap : Byte
  presenceInterval : Byte
  silenceMultiplier : Byte
  replyTimeout : Byte
  attemptLimit : Byte
  checkByte : Byte
deriving DecidableEq, Repr

/-- The configuration latch: the bytes as last read, their check result (absent once cleared, R5) and the reset cause. -/
structure Latch where
  bytes : ConfigBytes
  check : Option CheckResult
  cause : ResetCause
deriving DecidableEq, Repr

/-! ## Station controller and mark unit -/

/-- A timer, stopped or running with the length in ms it was started with. No elapsed time is counted (log 4). -/
inductive Timer where
  | stopped
  | running (ms : Nat)
deriving DecidableEq, Repr

/-- Station state (R7). -/
inductive StationState where
  | configFault
  | offline
  | joining
  | online
  | leaving
  | isolated
deriving DecidableEq, Repr

/-- The station controller. `state` is absent until the configuration read and its check have ended (R1). -/
structure StationController where
  state : Option StationState
  incarnation : Option Byte
  joinListen : Timer
  presence : Timer
deriving DecidableEq, Repr

/-- What the mark unit holds for a WAITING channel (section 9.3). -/
structure WaitMember where
  mask : Word
  target : Word
deriving DecidableEq, Repr

/-- The mark unit: the own mark and the wait set, by channel (R149, R154). -/
structure MarkUnit where
  own : Word
  waits : Vector (Option WaitMember) 8
deriving DecidableEq, Repr

/-! ## Bus interface -/

/-- Slot reference (R25). -/
inductive SlotRef where
  | cold
  | warm (lastSource : Station)
deriving DecidableEq, Repr

/-- The two requests of the peer bus. -/
inductive ReqKind where
  | write
  | read
deriving DecidableEq, Repr

/-- Reply status (section 2.2). -/
inductive ReplyStatus where
  | done
  | refusedAccess
  | refusedRange
  | noCredit
  | localError
deriving DecidableEq, Repr

/-- Whose reply it is: an inbound slot's, or a refusal place's (R30). -/
inductive ReplyOwner where
  | slot (i : SlotNo)
  | refusal
deriving DecidableEq, Repr

/-- A reply waiting in the reply queue: an ACK when `kind` is write, a DATA when it is read (R66, R82). -/
structure QueuedReply where
  owner : ReplyOwner
  dest : Station
  kind : ReqKind
  tag : Tag
  seq : Byte
  echo : Byte
  status : ReplyStatus
  payload : List Byte
deriving DecidableEq, Repr

/-- A message of the control queue (R31). -/
inductive Control where
  | join
  | presence
  | leave
  | ask (peer : Station) (wanted : Nat)
  | grant (peer : Station) (credits : Nat) (echo : Byte)
deriving DecidableEq, Repr

/-- What the transmit buffer took, and from which queue. -/
inductive Outgoing where
  | reply (r : QueuedReply)
  | control (c : Control)
  | request (tag : Tag)
deriving DecidableEq, Repr

/-- Kind fields of a message on the bus (section 2.2). -/
inductive Body where
  | join (mark : Word)
  | presence (mark : Word)
  | leave (mark : Word)
  | ask (wanted : Byte)
  | grant (credits echo : Byte)
  | write (tag seq low window : Byte) (offset : BitVec 24) (payload : List Byte)
  | read (tag seq low window : Byte) (offset : BitVec 24) (length : Byte)
  | ack (tag seq echo status : Byte)
  | data (tag seq echo status : Byte) (payload : List Byte)
deriving DecidableEq, Repr

/-- A message on the bus: header and kind fields; the check is computed (R19). -/
structure Message where
  dest : Byte
  source : Byte
  inc : Byte
  body : Body
deriving DecidableEq, Repr

/-- The transmit buffer's contents (R29, R33): what is sent, the message as filled at its start (R20), and whether its
owner has withdrawn it during the transmission. -/
structure Transmission where
  item : Outgoing
  message : Message
  withdrawn : Bool
deriving DecidableEq, Repr

/-- What the bus interface knows of the line: idle; an activity in progress; or the rest of an activity in which the
station abandoned its own message and which it does not receive (R24, R35, R36). -/
inductive Line where
  | idle
  | activity
  | abandoned
deriving DecidableEq, Repr

/-- The bus interface. `slotClock`: slot times since the last activity
end (or turn-on) that a command has named (log 15). -/
structure BusInterface where
  slotRef : SlotRef
  line : Line
  slotClock : Nat
  clashCount : Nat
  replyQueue : List QueuedReply
  controlQueue : List Control
  requestQueue : List Tag
  transmit : Option Transmission
deriving DecidableEq, Repr

/-! ## Peer table and credit unit -/

/-- Absent reason (R37). -/
inductive AbsentReason where
  | silent
  | left
deriving DecidableEq, Repr

/-- State of a peer entry (R37). -/
inductive PeerState where
  | unknown
  | present
  | absent (reason : AbsentReason)
deriving DecidableEq, Repr

/-- A served pair (R78). -/
structure ServedPair where
  seq : Byte
  status : ReplyStatus
deriving DecidableEq, Repr

/-- A peer entry (section 3.1). -/
structure PeerEntry where
  state : PeerState
  incarnation : Option Byte
  mark : Option Word
  silence : Timer
  held : Nat
  asked : Bool
  askTimer : Timer
  nextSeq : Byte
  waitList : List Tag
  served : List ServedPair
deriving DecidableEq, Repr

/-- A member of the ask list (R61). -/
structure Asker where
  peer : Station
  wanted : Nat
deriving DecidableEq, Repr

/-- The credit unit. `refusals` counts the refusal places taken (R66). -/
structure CreditUnit where
  grants : Vector Nat 16
  askList : List Asker
  refusals : Nat
deriving DecidableEq, Repr

/-! ## Exposure table and inbound server -/

/-- Rights of a window (section 5.1). -/
inductive Rights where
  | read
  | write
  | readWrite
deriving DecidableEq, Repr

/-- A pending watch notice (R86). -/
structure Notice where
  firstPeer : Station
  firstOffset : Nat
  lastPeer : Station
  count : Nat
deriving DecidableEq, Repr

/-- An exposure window (section 5.1); the notice is absent while idle. -/
structure Window where
  enabled : Bool
  base : Nat
  length : Nat
  rights : Rights
  mask : Word
  watch : Bool
  notice : Option Notice
deriving DecidableEq, Repr

/-- State of an occupied inbound slot (section 5.2). -/
inductive SlotState where
  | checked
  | waitingLocal
  | accessing
  | replyQueued
deriving DecidableEq, Repr

/-- An occupied inbound slot. `behind`: in CHECKED, the slot that performs the earlier copy (R74). -/
structure Slot where
  state : SlotState
  requester : Station
  kind : ReqKind
  tag : Tag
  seq : Byte
  echo : Byte
  window : WindowNo
  offset : Nat
  length : Nat
  buffer : List Byte
  status : Option ReplyStatus
  stale : Bool
  behind : Option SlotNo
deriving DecidableEq, Repr

/-- The inbound server: eight slots, absent while FREE, and the occupied ones in order of admission (R71, R74). -/
structure InboundServer where
  slots : Vector (Option Slot) 8
  arrivals : List SlotNo
deriving DecidableEq, Repr

/-! ## Channel engine -/

/-- Channel state (section 7.1). -/
inductive ChanState where
  | idle
  | fetching
  | running
  | draining
  | waiting
  | completing
  | faulted
deriving DecidableEq, Repr

/-- Ending flag (section 7.1). -/
inductive EndingFlag where
  | none
  | stopping
  | aborting
deriving DecidableEq, Repr

/-- Pending status (section 7.1). -/
inductive PendingStatus where
  | done
  | partly
  | faulted
  | aborted
deriving DecidableEq, Repr

/-- Fault codes (section 10.4); NONE is an empty fault record. -/
inductive FaultCode where
  | badDescriptor
  | refusedAccess
  | refusedRange
  | remoteLocal
  | localBus
  | timeout
  | peerLost
  | peerRestarted
  | peerLeft
  | waitExpired
  | isolated
  | ringWrite
deriving DecidableEq, Repr

/-- A fault record that is not empty (R105). -/
structure FaultRecord where
  code : FaultCode
  piece : Option Nat
  peer : Option Station
  addr : Nat
  further : Nat
deriving DecidableEq, Repr

/-- The fields of a completion record, fixed at the entry into COMPLETING (R118). -/
structure Record where
  chan : Chan
  status : PendingStatus
  code : Option FaultCode
  done : Nat
  failed : Nat
  addr : Nat
  tagWord : List Byte
deriving DecidableEq, Repr

/-- A channel (section 7.1). -/
structure Channel where
  state : ChanState
  addr : Option Nat
  copy : Option (List Byte)
  next : Nat
  issued : Nat
  done : Nat
  failed : Nat
  owned : Nat
  flag : EndingFlag
  pending : Option PendingStatus
  recordDue : Bool
  record : Option Record
  chainCancelled : Bool
  waitTimer : Timer
  fault : Option FaultRecord
deriving DecidableEq, Repr

/-! ## Transaction table -/

/-- State of an entry in use (section 8.1). -/
inductive EntryState where
  | loading
  | waitingCredit
  | queued
  | sent
  | storing
deriving DecidableEq, Repr

/-- A transaction entry in use (section 8.1). -/
structure Entry where
  state : EntryState
  chan : Chan
  piece : Nat
  peer : Station
  kind : ReqKind
  window : Nat
  offset : Nat
  addr : Nat
  length : Nat
  seq : Option Byte
  attempts : Nat
  replyTimer : Timer
  aborting : Bool
  retireReason : Option FaultCode
  inTransmission : Bool
  buffer : List Byte
deriving DecidableEq, Repr

/-! ## Local memory port -/

/-- Who asked for an access (section 10.1). -/
inductive Requester where
  | fetch (c : Chan)
  | load (t : Tag)
  | store (t : Tag)
  | record (c : Chan)
  | inboundWrite (i : SlotNo)
  | inboundRead (i : SlotNo)
deriving DecidableEq, Repr

/-- An access: its requester, its first address, its length and, for a write, its bytes. -/
structure Access where
  requester : Requester
  addr : Nat
  length : Nat
  bytes : List Byte
deriving DecidableEq, Repr

/-- The two sides of the port. -/
inductive Side where
  | outbound
  | inbound
deriving DecidableEq, Repr

/-- The access in progress, and whether its result is to be dropped (R163). -/
structure CurrentAccess where
  access : Access
  dropped : Bool
deriving DecidableEq, Repr

/-- The local memory port (R160, R161). -/
structure LocalPort where
  outQueue : List Access
  inQueue : List Access
  current : Option CurrentAccess
  lastSide : Side
deriving DecidableEq, Repr

/-! ## Completion ring unit and host port -/

/-- A ring configuration taken by SET RING (R164). -/
structure RingConfig where
  base : Nat
  size : Nat
deriving DecidableEq, Repr

/-- The completion ring unit (R164 to R166). -/
structure RingUnit where
  config : Option RingConfig
  producer : Word
  consumer : Word
  waitList : List Chan
  inProgress : Option Chan
deriving DecidableEq, Repr

/-- Result codes (section 11.2). -/
inductive ResultCode where
  | accepted
  | busy
  | wrongState
  | badParameter
  | noEffect
deriving DecidableEq, Repr

/-- The host port's own registers (R184). -/
structure HostPort where
  cmd : Word
  params : Vector Word 4
  result : Word
  views : Vector Word 8
  attnen : BitVec 6
  stationCause : Bool
  misuseCause : Bool
deriving DecidableEq, Repr

/-! ## The state -/

/-- The state of the part. The last two fields are the model's own: `written` is what the port has written to local
memory (log 9), `pending` the commands that wait. -/
structure State where
  phase : Phase
  latch : Latch
  station : StationController
  marks : MarkUnit
  bus : BusInterface
  peers : Vector PeerEntry 16
  changes : Word
  credit : CreditUnit
  windows : Vector Window 8
  inbound : InboundServer
  channels : Vector Channel 8
  readyList : List Chan
  entries : Vector (Option Entry) 16
  port : LocalPort
  ring : RingUnit
  host : HostPort
  written : List Host.Cell
  pending : List Instr
deriving DecidableEq, Repr

/-- The faults that stop the machine: none. The spec gives the part no behaviour that stops it (safe: no run ends). -/
inductive Fault where
deriving DecidableEq, Repr

/-- The refusals. -/
inductive Refusal where
  /-- Raised by a dispatch arm whose command has no meaning yet. Safe: the machine stops where the part goes on. -/
  | notModelled (mnemonic : String)
deriving DecidableEq, Repr

/-! ## Reset contents, block by block -/

/-- The station controller after a start reset (R7, R43). -/
def StationController.cleared : StationController :=
  { state := none, incarnation := none, joinListen := .stopped, presence := .stopped }

/-- The mark unit after a reset (R149, R154). -/
def MarkUnit.cleared : MarkUnit := { own := 0#16, waits := .replicate 8 none }

/-- The bus interface after a reset (section 2.7). -/
def BusInterface.cleared : BusInterface :=
  { slotRef := .cold, line := .idle, slotClock := 0, clashCount := 0, replyQueue := [], controlQueue := [],
    requestQueue := [], transmit := none }

/-- Reset contents of a peer entry (R37). -/
def PeerEntry.cleared : PeerEntry :=
  { state := .unknown, incarnation := none, mark := none, silence := .stopped, held := 0, asked := false,
    askTimer := .stopped, nextSeq := 0#8, waitList := [], served := [] }

/-- The credit unit after a reset (R67). -/
def CreditUnit.cleared : CreditUnit := { grants := .replicate 16 0, askList := [], refusals := 0 }

/-- Reset contents of a window (section 5.1). -/
def Window.cleared : Window :=
  { enabled := false, base := 0, length := 1, rights := .read, mask := 0#16, watch := false, notice := none }

/-- The inbound server after a reset (R71). -/
def InboundServer.cleared : InboundServer := { slots := .replicate 8 none, arrivals := [] }

/-- Reset contents of a channel (R103). -/
def Channel.cleared : Channel :=
  { state := .idle, addr := none, copy := none, next := 0, issued := 0, done := 0, failed := 0, owned := 0,
    flag := .none, pending := none, recordDue := false, record := none, chainCancelled := false,
    waitTimer := .stopped, fault := none }

/-- The local memory port after a start reset (R161). -/
def LocalPort.cleared : LocalPort := { outQueue := [], inQueue := [], current := none, lastSide := .inbound }

/-- The completion ring unit after a reset (R170). -/
def RingUnit.cleared : RingUnit :=
  { config := none, producer := 0#16, consumer := 0#16, waitList := [], inProgress := none }

/-- The host port after a start reset (R184). -/
def HostPort.cleared : HostPort :=
  { cmd := 0#16, params := .replicate 4 0#16, result := 0#16, views := .replicate 8 0#16, attnen := 0#6,
    stationCause := false, misuseCause := false }

/-- Configuration bytes as the latch holds them once it has cleared them (R5). DESIGN CHOICE (log 7): zeros. -/
def ConfigBytes.cleared : ConfigBytes :=
  { stationNumber := 0#8, stationCount := 0#8, rateAndCap := 0#8, presenceInterval := 0#8, silenceMultiplier := 0#8,
    replyTimeout := 0#8, attemptLimit := 0#8, checkByte := 0#8 }

/-- The machine right after a power-on reset has ended (R4, R5): every block holds its reset contents, the latch has
cleared its bytes and check result, and the read of the configuration memory begins (log 5). -/
def State.reset : State :=
  { phase := .reading
    latch := { bytes := .cleared, check := none, cause := .powerOn }
    station := .cleared
    marks := .cleared
    bus := .cleared
    peers := .replicate 16 .cleared
    changes := 0#16
    credit := .cleared
    windows := .replicate 8 .cleared
    inbound := .cleared
    channels := .replicate 8 .cleared
    readyList := []
    entries := .replicate 16 none
    port := .cleared
    ring := .cleared
    host := .cleared
    written := []
    pending := [] }

end Sys2Proof.Machine
end

