-- ==== Sys2Proof/Machine/Ops.lean ====
section
/-! DEFINITION. The named operations over the blocks' collections: reading and writing one place, the configuration's
values, the queues of the bus interface, the queues of the port, bytes written to local memory. -/
namespace Sys2Proof.Machine

/-- What a command answers. -/
abbrev Result := Host.Outcome State Fault Refusal

/-! ## One place of a table -/

/-- The peer entry of `p`. -/
def State.peer (s : State) (p : Station) : PeerEntry := s.peers[p]

/-- Replaces the peer entry of `p`. -/
def State.setPeer (s : State) (p : Station) (e : PeerEntry) : State := { s with peers := s.peers.set p e }

/-- Changes the peer entry of `p`. -/
def State.modPeer (s : State) (p : Station) (f : PeerEntry → PeerEntry) : State := s.setPeer p (f (s.peer p))

/-- The transaction entry `t`, absent while FREE. -/
def State.entry (s : State) (t : Tag) : Option Entry := s.entries[t]

/-- Replaces the transaction entry `t`. -/
def State.setEntry (s : State) (t : Tag) (e : Option Entry) : State := { s with entries := s.entries.set t e }

/-- Changes the transaction entry `t` if it is in use. -/
def State.modEntry (s : State) (t : Tag) (f : Entry → Entry) : State := s.setEntry t ((s.entry t).map f)

/-- The channel `c`. -/
def State.chan (s : State) (c : Chan) : Channel := s.channels[c]

/-- Replaces the channel `c`. -/
def State.setChan (s : State) (c : Chan) (ch : Channel) : State := { s with channels := s.channels.set c ch }

/-- Changes the channel `c`. -/
def State.modChan (s : State) (c : Chan) (f : Channel → Channel) : State := s.setChan c (f (s.chan c))

/-- The inbound slot `i`, absent while FREE. -/
def State.slot (s : State) (i : SlotNo) : Option Slot := s.inbound.slots[i]

/-- Replaces the inbound slot `i`. -/
def State.setSlot (s : State) (i : SlotNo) (x : Option Slot) : State :=
  { s with inbound := { s.inbound with slots := s.inbound.slots.set i x } }

/-- Changes the inbound slot `i` if it is occupied. -/
def State.modSlot (s : State) (i : SlotNo) (f : Slot → Slot) : State := s.setSlot i ((s.slot i).map f)

/-- The window `w`. -/
def State.window (s : State) (w : WindowNo) : Window := s.windows[w]

/-- Replaces the window `w`. -/
def State.setWindowAt (s : State) (w : WindowNo) (x : Window) : State := { s with windows := s.windows.set w x }

/-- The grant count of `p` (R60). -/
def State.grantCount (s : State) (p : Station) : Nat := s.credit.grants[p]

/-- Sets the grant count of `p`. -/
def State.setGrant (s : State) (p : Station) (n : Nat) : State :=
  { s with credit := { s.credit with grants := s.credit.grants.set p n } }

/-- The wait set's member for channel `c` (R154). -/
def State.waitOf (s : State) (c : Chan) : Option WaitMember := s.marks.waits[c]

/-- Puts channel `c` into the wait set, or takes it out. -/
def State.setWait (s : State) (c : Chan) (m : Option WaitMember) : State :=
  { s with marks := { s.marks with waits := s.marks.waits.set c m } }

/-! ## The accepted configuration (section 1.1) -/

/-- The own number. -/
def State.own (s : State) : Nat := s.latch.bytes.stationNumber.toNat

/-- The own number as a station number. -/
def State.ownStation (s : State) : Station := Fin.ofNat 16 s.own

/-- The station count N. -/
def State.stationCount (s : State) : Nat := s.latch.bytes.stationCount.toNat

/-- The credit cap C: byte 2 is 4 × rate code + (C − 1). -/
def State.creditCap (s : State) : Nat := s.latch.bytes.rateAndCap.toNat % 4 + 1

/-- The rate code. -/
def State.rateCode (s : State) : Nat := s.latch.bytes.rateAndCap.toNat / 4

/-- The presence interval in ms. -/
def State.presenceInterval (s : State) : Nat := s.latch.bytes.presenceInterval.toNat

/-- The silence timeout in ms, also the join listen time. -/
def State.silenceTimeout (s : State) : Nat := s.presenceInterval * s.latch.bytes.silenceMultiplier.toNat

/-- The reply timeout in ms, also the ask repeat interval. -/
def State.replyTimeout (s : State) : Nat := s.latch.bytes.replyTimeout.toNat

/-- The attempt limit. -/
def State.attemptLimit (s : State) : Nat := s.latch.bytes.attemptLimit.toNat

/-! ## What the station state decides (R7) -/

/-- The station state is `st`. -/
def State.inState (s : State) (st : StationState) : Bool := s.station.state = some st

/-- Receiver and transmitter run in JOINING, ONLINE and LEAVING (R7). -/
def State.receiverOn (s : State) : Bool := s.inState .joining || s.inState .online || s.inState .leaving

/-- The transmitter is on in the same states (R7). -/
def State.transmitterOn (s : State) : Bool := s.receiverOn

/-- The receiver runs and the station does not transmit (section 2.3), so it observes the line. -/
def State.listening (s : State) : Bool := s.receiverOn && s.bus.transmit.isNone

/-- The line carries the rest of an activity in which the station abandoned its own message: it observes the end of that
activity and receives nothing of it (R24, R35, R36). -/
def State.deaf (s : State) : Bool := s.bus.line = .abandoned

/-- Enters a station state, setting the STATION cause (R16). -/
def State.enterStation (s : State) (st : StationState) : State :=
  { s with station := { s.station with state := some st }, host := { s.host with stationCause := true } }

/-- A timer runs. -/
def Timer.isRunning : Timer → Bool
  | .stopped => false
  | .running _ => true

/-! ## Counts over the tables -/

/-- Inbound slots occupied (section 5.2). -/
def State.occupied (s : State) : Nat := allSlots.countP fun i => (s.slot i).isSome

/-- Inbound slots occupied by requests of `p` (R178). -/
def State.occupiedBy (s : State) (p : Station) : Nat :=
  allSlots.countP fun i => ((s.slot i).map (·.requester)) = some p

/-- The sum of the grant counts (R60). -/
def State.grantSum (s : State) : Nat := (allStations.map s.grantCount).sum

/-- The free capacity F (R60). -/
def State.freeCapacity (s : State) : Nat := Config.inboundSlots - s.occupied - s.grantSum

/-- Entries in use addressed to `p` (R128). -/
def State.entriesTo (s : State) (p : Station) : Nat :=
  allTags.countP fun t => ((s.entry t).map (·.peer)) = some p

/-- Places `p` in the peer change set (R49). -/
def State.addChange (s : State) (p : Station) : State := { s with changes := s.changes ||| maskOf p }

/-! ## Control queue (R31, R33) -/

/-- JOIN, PRESENCE and LEAVE, of which the queue holds at most one together. -/
def Control.isAnnouncement : Control → Bool
  | .join | .presence | .leave => true
  | .ask _ _ | .grant _ _ _ => false

/-- An ASK to `p`. -/
def Control.isAskTo (p : Station) : Control → Bool
  | .ask q _ => q = p
  | .join | .presence | .leave | .grant _ _ _ => false

/-- A GRANT to `p`. -/
def Control.isGrantTo (p : Station) : Control → Bool
  | .grant q _ _ => q = p
  | .join | .presence | .leave | .ask _ _ => false

/-- An ASK or a GRANT, to whichever peer. -/
def Control.isCredit : Control → Bool
  | .ask _ _ | .grant _ _ _ => true
  | .join | .presence | .leave => false

/-- A new message joins the control queue, under the coalescing of R31. DESIGN CHOICE (log 12): a LEAVE that meets a
waiting JOIN takes its place, as it takes a PRESENCE's. -/
def coalesce (q : List Control) : Control → List Control
  | .join => q ++ [.join]
  | .presence => if q.any Control.isAnnouncement then q else q ++ [.presence]
  | .leave =>
      if q.any Control.isAnnouncement then q.map fun c => if c.isAnnouncement then .leave else c else q ++ [.leave]
  | .ask p wanted =>
      if q.any (Control.isAskTo p) then q.map fun c => if c.isAskTo p then .ask p wanted else c
      else q ++ [.ask p wanted]
  | .grant p credits echo => q ++ [.grant p credits echo]

/-- Two messages of one kind and peer; the three announcements count as one kind (R31). -/
def Control.sameGroup : Control → Control → Bool
  | .ask p _, c => c.isAskTo p
  | .grant p _ _, c => c.isGrantTo p
  | .join, c | .presence, c | .leave, c => c.isAnnouncement

/-- A message abandoned on a clash returns to the head, coalesced with a waiting one of its kind and peer (R33). -/
def returnControl (q : List Control) (c : Control) : List Control :=
  (q.filter c.sameGroup).foldl coalesce [c] ++ q.filter fun x => !c.sameGroup x

/-- Queues a message in the control queue (R31). -/
def State.queueControl (s : State) (c : Control) : State :=
  { s with bus := { s.bus with controlQueue := coalesce s.bus.controlQueue c } }

/-- The LEAVE stands in the control queue or in the transmit buffer. -/
def State.leavePending (s : State) : Bool :=
  s.bus.controlQueue.contains .leave || s.bus.transmit.map (·.item) = some (.control .leave)

/-- Queues a PRESENCE (R43, R44): dropped while a JOIN, PRESENCE or LEAVE waits (R31), and once the LEAVE is queued
(R11), also while it is in transmission (log 13). -/
def State.queuePresence (s : State) : State := if s.leavePending then s else s.queueControl .presence

/-- Marks the transmission in progress withdrawn if it is a control message of kind `f` (R33). -/
def Transmission.withdrawIf (f : Control → Bool) (t : Transmission) : Transmission :=
  match t.item with
  | .control c => if f c then { t with withdrawn := true } else t
  | .reply _ | .request _ => t

/-- Withdraws the waiting control messages of kind `f`; one in transmission is recorded as withdrawn (R31, R33). -/
def State.withdrawControl (s : State) (f : Control → Bool) : State :=
  { s with bus := { s.bus with
      controlQueue := s.bus.controlQueue.filter fun c => !f c
      transmit := s.bus.transmit.map (Transmission.withdrawIf f) } }

/-! ## Reply and request queues (R30, R32) -/

/-- Appends a reply (R30). -/
def State.queueReply (s : State) (r : QueuedReply) : State :=
  { s with bus := { s.bus with replyQueue := s.bus.replyQueue ++ [r] } }

/-- Appends the request of entry `t` (R32). -/
def State.queueRequest (s : State) (t : Tag) : State :=
  { s with bus := { s.bus with requestQueue := s.bus.requestQueue ++ [t] } }

/-- Withdraws the waiting request of entry `t` (R32). -/
def State.withdrawRequest (s : State) (t : Tag) : State :=
  { s with bus := { s.bus with requestQueue := without s.bus.requestQueue t } }

/-- Records the withdrawal of the request of entry `t` against the transmit buffer (R33, R145). -/
def State.withdrawSending (s : State) (t : Tag) : State :=
  { s with bus := { s.bus with
      transmit := s.bus.transmit.map fun x => if x.item = .request t then { x with withdrawn := true } else x } }

/-! ## Own mark (R149, R152) -/

/-- An advance of the own mark; while the transmitter is on, it queues an early PRESENCE (R44, R152). -/
def State.advanceMark (s : State) : State :=
  let s := { s with marks := { s.marks with own := s.marks.own + 1#16 } }
  if s.transmitterOn then s.queuePresence else s

/-! ## Local memory port (R158 to R160) -/

/-- Appends an access to the outbound access queue. -/
def State.queueOutbound (s : State) (a : Access) : State :=
  { s with port := { s.port with outQueue := s.port.outQueue ++ [a] } }

/-- Appends an access to the inbound access queue. -/
def State.queueInbound (s : State) (a : Access) : State :=
  { s with port := { s.port with inQueue := s.port.inQueue ++ [a] } }

/-- The bus cycle, counted from 0, that carries the byte at address `a` of an access that begins at `first`: each cycle
reaches one word of two bytes (R158). -/
def cycleOf (first a : Nat) : Nat := a / 2 - first / 2

/-- The number of bus cycles of an access of `len` bytes from `first` (R158). -/
def cycleCount (first len : Nat) : Nat := if len = 0 then 0 else cycleOf first (first + len - 1) + 1

/-- The bytes written to local memory so far, in canonical form: addresses strictly rising. -/
abbrev Memory := List Host.Cell

/-- The canonical form of `Memory`. -/
abbrev Memory.wf (m : Memory) : Prop := m.Pairwise fun x y => x.1 < y.1

/-- What the port last wrote at `a`; absent where it has written nothing. -/
def Memory.read : Memory → Nat → Option Byte
  | [], _ => none
  | (x, b) :: m, a => if x = a then some b else Memory.read m a

/-- One byte written. -/
def Memory.write : Memory → Nat → Byte → Memory
  | [], a, b => [(a, b)]
  | (x, y) :: m, a, b =>
      if a < x then (a, b) :: (x, y) :: m else if a = x then (a, b) :: m else (x, y) :: Memory.write m a b

/-- Writes those bytes of `bytes`, laid from `a` upward, for which `took` answers yes; `j` counts the bytes. -/
def Memory.writeWhere (took : Nat → Bool) : List Byte → Nat → Nat → Memory → Memory
  | [], _, _, m => m
  | b :: rest, first, j, m =>
      Memory.writeWhere took rest first (j + 1) (if took j then m.write (first + j) b else m)

/-- The failing cycle of an access: an index beyond the access stands for its last cycle (R159). -/
def failingCycle (first len cycle : Nat) : Nat := min cycle (cycleCount first len - 1)

/-- Whether byte `j` of a write access from `first` of `len` bytes has been written when the access has ended so
(R159): all without error; with an error those of the cycles before the failing one, and those of the failing cycle
as the memory took them. -/
def tookByte (first len : Nat) (e : AccessEnd) (j : Nat) : Bool :=
  match e with
  | .ok _ => true
  | .error cycle low high _ =>
      let failing := failingCycle first len cycle
      let mine := cycleOf first (first + j)
      if mine < failing then true else if mine = failing then (if (first + j) % 2 = 0 then low else high) else false

/-- An access is a write (section 10.1). -/
def Requester.isWrite : Requester → Bool
  | .store _ | .record _ | .inboundWrite _ => true
  | .fetch _ | .load _ | .inboundRead _ => false

/-- The bytes that an ended access has put into local memory (R141, R159), whoever asked for it: a store that ends in error
has written the bytes before the failing cycle, though R97 has a failed piece perform nothing at its local end (log 33). -/
def State.applyWrite (s : State) (a : Access) (e : AccessEnd) : State :=
  if a.requester.isWrite then
    { s with written := Memory.writeWhere (tookByte a.addr a.bytes.length e) a.bytes a.addr 0 s.written }
  else s

/-- The bytes that a write access cut short by a start reset has put into local memory: none, some or all (R5). -/
def State.applyCut (s : State) (cut : List Bool) : State :=
  match s.port.current with
  | none => s
  | some cur =>
      if cur.access.requester.isWrite then
        { s with written := Memory.writeWhere (fun j => cut.getD j false) cur.access.bytes cur.access.addr 0 s.written }
      else s

/-- The data of a read access, as its requester takes it: absent after an error (R159). -/
def readData (len : Nat) : AccessEnd → Option (List Byte)
  | .ok data => some (fitBytes len data)
  | .error _ _ _ _ => none

/-- The number of bytes of an access of `len` bytes from `first` that its cycles before cycle `n` carry (R158). -/
def bytesBefore (first len n : Nat) : Nat := (List.range len).countP fun j => cycleOf first (first + j) < n

/-- The bytes that stand in the requester's buffer when a read access of `len` bytes from `first` has ended (R158,
R159): all of them, or after an error those of the cycles before the failing one. -/
def readBuffer (first len : Nat) : AccessEnd → List Byte
  | .ok data => fitBytes len data
  | .error cycle _ _ data => fitBytes (bytesBefore first len (failingCycle first len cycle)) data

/-- An access has ended without error. -/
def endedOk : AccessEnd → Bool
  | .ok _ => true
  | .error _ _ _ _ => false

end Sys2Proof.Machine
end

