-- ==== Sys2Proof/Machine/Operands.lean ====
section
/-! DEFINITION. Where the commands take their parameters from: the operand byte and PARAM0 to PARAM3 (R174, R175). -/
namespace Sys2Proof.Machine

/-- PARAM register `k`. -/
def State.param (s : State) (k : Fin 4) : Word := s.host.params[k]

/-- The 32-bit parameter in PARAM0 (bits 0 to 15) and PARAM1 (R175). -/
def State.param32 (s : State) : Nat := (s.param 0).toNat + 65536 * (s.param 1).toNat

/-- A channel operand, absent above 7. -/
def chanOperand (operand : Byte) : Option Chan := if h : operand.toNat < 8 then some ⟨operand.toNat, h⟩ else none

/-- A window operand, absent above 7. -/
def windowOperand (operand : Byte) : Option WindowNo := if h : operand.toNat < 8 then some ⟨operand.toNat, h⟩ else none

/-- A station operand, absent above 15. -/
def stationOperand (operand : Byte) : Option Station :=
  if h : operand.toNat < 16 then some ⟨operand.toNat, h⟩ else none

/-- A rights code (section 11.2); 0 is none of the rights. -/
def rightsOfCode : Nat → Option Rights
  | 1 => some .read
  | 2 => some .write
  | 3 => some .readWrite
  | _ => none

/-- SET WINDOW: operand bits 0 to 3 (CMD bits 8 to 11), the window number. -/
def windowNumberOf (operand : Byte) : Nat := operand.toNat % 16

/-- SET WINDOW: the base, PARAM0 and the low byte of PARAM1 (R175). -/
def State.windowBase (s : State) : Nat := (s.param 0).toNat + 65536 * (lowByte (s.param 1)).toNat

/-- SET WINDOW: the length, PARAM2 and the high byte of PARAM1 (R175). -/
def State.windowLength (s : State) : Nat := (s.param 2).toNat + 65536 * (highByte (s.param 1)).toNat

/-- SET RING: the ring size, PARAM2 (R175). -/
def State.ringSize (s : State) : Nat := (s.param 2).toNat

/-- A byte as a station number below `n`. -/
def stationBelow (n : Nat) (b : Byte) : Option Station :=
  if h : b.toNat < 16 then (if b.toNat < n then some ⟨b.toNat, h⟩ else none) else none

/-- A byte of a well-formed message as a tag. -/
def tagOfByte (b : Byte) : Tag := Fin.ofNat 16 b.toNat

/-- A byte of a well-formed message as a window number. -/
def windowOfByte (b : Byte) : WindowNo := Fin.ofNat 8 b.toNat

/-- Reply status by its code (section 2.2). -/
def statusOfByte (b : Byte) : Option ReplyStatus :=
  match b.toNat with
  | 0 => some .done
  | 1 => some .refusedAccess
  | 2 => some .refusedRange
  | 3 => some .noCredit
  | 4 => some .localError
  | _ => none

/-- The code of a reply status (section 2.2). -/
def ReplyStatus.code : ReplyStatus → Nat
  | .done => 0
  | .refusedAccess => 1
  | .refusedRange => 2
  | .noCredit => 3
  | .localError => 4

/-- The code of a pending status (section 10.4). -/
def PendingStatus.code : PendingStatus → Nat
  | .done => 0
  | .partly => 1
  | .faulted => 2
  | .aborted => 3

/-- The code of a fault (section 10.4); NONE is 0. -/
def FaultCode.code : FaultCode → Nat
  | .badDescriptor => 1
  | .refusedAccess => 2
  | .refusedRange => 3
  | .remoteLocal => 4
  | .localBus => 5
  | .timeout => 6
  | .peerLost => 7
  | .peerRestarted => 8
  | .peerLeft => 9
  | .waitExpired => 10
  | .isolated => 11
  | .ringWrite => 12

/-- The code of a result (section 11.2). -/
def ResultCode.code : ResultCode → Nat
  | .accepted => 1
  | .busy => 2
  | .wrongState => 3
  | .badParameter => 4
  | .noEffect => 5

/-- The code of a station state (section 11.2). -/
def StationState.code : StationState → Nat
  | .configFault => 0
  | .offline => 1
  | .joining => 2
  | .online => 3
  | .leaving => 4
  | .isolated => 5

/-- The code of a reset cause (section 11.2). -/
def ResetCause.code : ResetCause → Nat
  | .powerOn => 1
  | .pin => 2
  | .soft => 3

/-- The code of a channel state (section 11.2). -/
def ChanState.code : ChanState → Nat
  | .idle => 0
  | .fetching => 1
  | .running => 2
  | .draining => 3
  | .waiting => 4
  | .completing => 5
  | .faulted => 6

/-- The code of an ending flag (section 11.2). -/
def EndingFlag.code : EndingFlag → Nat
  | .none => 0
  | .stopping => 1
  | .aborting => 2

/-- The code of a peer state (section 11.2). -/
def PeerState.code : PeerState → Nat
  | .unknown => 0
  | .present => 1
  | .absent _ => 2

/-- The code of the rights of a window (section 11.2). -/
def Rights.code : Rights → Nat
  | .read => 1
  | .write => 2
  | .readWrite => 3

end Sys2Proof.Machine
end

