-- ==== Sys2Proof/Machine/Flags.lean ====
section
/-! DEFINITION. The attention causes and the ATTN line (section 11.5), and the answers in RESULT (R174). -/
namespace Sys2Proof.Machine

/-- RING: the producer differs from the consumer (R180). -/
def State.ringCause (s : State) : Bool := s.ring.producer ≠ s.ring.consumer

/-- FAULT: some channel is FAULTED (R180). -/
def State.faultCause (s : State) : Bool := allChans.any fun c => (s.chan c).state = .faulted

/-- WATCH: some watch notice is pending (R180). -/
def State.watchCause (s : State) : Bool := allWindows.any fun w => (s.window w).notice.isSome

/-- PEER: the peer change set is not empty (R180). -/
def State.peerCause (s : State) : Bool := s.changes ≠ 0#16

/-- The six causes, in their bit positions (section 11.2). -/
def State.causes (s : State) : List Bool :=
  [s.ringCause, s.faultCause, s.watchCause, s.peerCause, s.host.stationCause, s.host.misuseCause]

/-- The ATTN line is active: some cause is active with its enable set (R182); never during a start reset or a
configuration read (R1, R182). -/
def State.attnLine (s : State) : Bool :=
  s.phase = .running && (List.range 6).any fun k => s.causes.getD k false && s.host.attnen.getLsbD k

/-- The ATTN register (section 11.2). -/
def State.attnRegister (s : State) : Word :=
  packWord [(0, bit s.ringCause), (1, bit s.faultCause), (2, bit s.watchCause), (3, bit s.peerCause),
    (4, bit s.host.stationCause), (5, bit s.host.misuseCause), (15, bit s.attnLine)]

/-- Writes RESULT: the result code and the code of the command answered (R174). -/
def State.answer (s : State) (code : Byte) (r : ResultCode) : State :=
  { s with host := { s.host with result := wordOfBytes (BitVec.ofNat 8 r.code) code } }

/-- A command is taken by a write of CMD (R174): the word stands in CMD, the owning block decides, RESULT is written.
While the host port is silent the write is discarded (R1, R171). -/
def State.takeCommand (s : State) (code operand : Byte) (decision : State → State × ResultCode) : State :=
  if s.phase = .running then
    let d := decision { s with host := { s.host with cmd := wordOfBytes code operand } }
    d.1.answer code d.2
  else s

/-- Replaces the eight VIEW words by the view of an accepted READ command (R176). -/
def State.setViews (s : State) (v : Vector Word 8) : State := { s with host := { s.host with views := v } }

end Sys2Proof.Machine
end

