-- ==== Sys2Proof/Machine/Descriptor.lean ====
section
/-! DEFINITION. The transfer descriptor: its fields, the geometry of its pieces, its validation (chapter 6). A
descriptor copy is a list of 32 bytes. -/
namespace Sys2Proof.Machine

/-- Byte `i` of a descriptor copy. -/
def descByte (d : List Byte) (i : Nat) : Nat := (d.getD i 0#8).toNat

/-- `len` bytes from byte `i`, least significant byte first (section 6.1). -/
def descField (d : List Byte) (i len : Nat) : Nat := natOfBytes (bytesAt d i len)

/-- Bit `k` of the flags (R91). -/
def descFlag (d : List Byte) (k : Nat) : Bool := (d.getD 1 0#8).getLsbD k

def descKind (d : List Byte) : Nat := descByte d 0
def descNotify (d : List Byte) : Bool := descFlag d 0
def descChain (d : List Byte) : Bool := descFlag d 1
def descStopOnFault (d : List Byte) : Bool := descFlag d 2
def descOrdered (d : List Byte) : Bool := descFlag d 3
def descAdvanceMark (d : List Byte) : Bool := descFlag d 4
def descPeer (d : List Byte) : Nat := descByte d 2
def descWindow (d : List Byte) : Nat := descByte d 3
def descLocal (d : List Byte) : Nat := descField d 4 4
def descOffset (d : List Byte) : Nat := descField d 8 4
def descLength (d : List Byte) : Nat := descByte d 12
def descPerRow (d : List Byte) : Nat := descByte d 13 + 1
def descRows (d : List Byte) : Nat := descField d 14 2
def descLocalStep (d : List Byte) : Int := signed32 (descField d 16 4)
def descRemoteStep (d : List Byte) : Int := signed32 (descField d 20 4)

/-- The next descriptor address: bits 0 to 23 of bytes 24 to 27 (R99). -/
def descNext (d : List Byte) : Nat := descField d 24 3

/-- The tag word, in its byte order (R100). -/
def descTagWord (d : List Byte) : List Byte := bytesAt d 28 4

/-- A WAIT's peer mask (R98). -/
def descMask (d : List Byte) : Word := wordOfBytes (d.getD 2 0#8) (d.getD 3 0#8)

/-- A WAIT's target mark (R98). -/
def descTarget (d : List Byte) : Word := wordOfBytes (d.getD 4 0#8) (d.getD 5 0#8)

/-- A WAIT's limit in ms, 0 for none (R98). -/
def descLimit (d : List Byte) : Nat := descField d 6 2

/-- The number of pieces of a PUT or GET; 0 of any other kind (R94, R177). -/
def descPieces (d : List Byte) : Nat := if descKind d ≤ 1 then descRows d * descPerRow d else 0

/-- The first local byte of piece `i`, exact (R96). -/
def pieceLocal (d : List Byte) (i : Nat) : Int :=
  (descLocal d : Int) + ((i / descPerRow d : Nat) : Int) * descLocalStep d
    + ((i % descPerRow d * descLength d : Nat) : Int)

/-- The first remote byte of piece `i`, exact (R96). -/
def pieceRemote (d : List Byte) (i : Nat) : Int :=
  (descOffset d : Int) + ((i / descPerRow d : Nat) : Int) * descRemoteStep d
    + ((i % descPerRow d * descLength d : Nat) : Int)

/-- Every byte of piece `i` lies in range at both ends (R102). -/
def pieceInRange (d : List Byte) (i : Nat) : Bool :=
  let last : Int := (descLength d : Int) - 1
  0 ≤ pieceLocal d i && pieceLocal d i + last < (Config.localSize : Int) && 0 ≤ pieceLocal d i + last
    && pieceLocal d i < (Config.localSize : Int) && 0 ≤ pieceRemote d i
    && pieceRemote d i + last < (Config.offsetSize : Int) && 0 ≤ pieceRemote d i + last
    && pieceRemote d i < (Config.offsetSize : Int)

/-- The four corner pieces (R102). -/
def cornerPieces (d : List Byte) : List Nat :=
  let perRow := descPerRow d
  let lastRow := (descRows d - 1) * perRow
  [0, perRow - 1, lastRow, lastRow + perRow - 1]

/-- The conditions of R101 on every kind, valid side. -/
def descCommonOk (d : List Byte) : Bool :=
  descKind d ≤ 2 && !descFlag d 5 && !descFlag d 6 && !descFlag d 7 && (!descChain d || descNext d % 32 = 0)

/-- The conditions of R101 on a PUT or GET, valid side, at a station with own number `own` in a group of `n`. -/
def descTransferOk (own n : Nat) (d : List Byte) : Bool :=
  decide (descPeer d < n) && decide (descPeer d ≠ own) && decide (descWindow d ≤ 7)
    && decide (1 ≤ descLength d) && decide (descLength d ≤ 64)
    && decide (1 ≤ descRows d) && decide (descRows d ≤ 4096)
    && decide (-8388608 ≤ descLocalStep d) && decide (descLocalStep d ≤ 8388607)
    && decide (-524288 ≤ descRemoteStep d) && decide (descRemoteStep d ≤ 524287)
    && (cornerPieces d).all (pieceInRange d)

/-- The conditions of R101 on a WAIT, valid side, in a group of `n`. -/
def descWaitOk (n : Nat) (d : List Byte) : Bool :=
  decide (descMask d ≠ 0#16) && decide ((descMask d).toNat < 2 ^ n)

/-- The descriptor copy is valid (R101). -/
def descValid (own n : Nat) (d : List Byte) : Bool :=
  descCommonOk d && (if descKind d ≤ 1 then descTransferOk own n d else descWaitOk n d)

end Sys2Proof.Machine
end

