-- ==== Sys2Proof/Machine/Channels.lean ====
section
/-! DEFINITION. The channel engine's shared operations: faults, the ready list, piece outcomes, the entry into
COMPLETING and the way out of it (chapter 7). -/
namespace Sys2Proof.Machine

/-! ## Faults (R105, R106) -/

/-- One more further fault, stopping at 255. -/
def FaultRecord.more (f : FaultRecord) : FaultRecord := { f with further := min 255 (f.further + 1) }

/-- A piece fault (R105). -/
def Channel.pieceFault (ch : Channel) (code : FaultCode) (piece : Nat) (peer : Station) : Channel :=
  match ch.fault with
  | none => { ch with fault := some { code, piece := some piece, peer := some peer, addr := ch.addr.getD 0, further := 0 } }
  | some f => { ch with fault := some f.more }

/-- The channel faults that take the place of the first fault (R106). -/
def FaultCode.takesPlace : FaultCode → Bool
  | .isolated | .ringWrite => true
  | .badDescriptor | .refusedAccess | .refusedRange | .remoteLocal | .localBus | .timeout | .peerLost
  | .peerRestarted | .peerLeft | .waitExpired => false

/-- A channel fault (R105, R106); only a WAIT's PEER-LOST carries a peer. -/
def Channel.channelFault (ch : Channel) (code : FaultCode) (peer : Option Station) : Channel :=
  match ch.fault with
  | none => { ch with fault := some { code, piece := none, peer, addr := ch.addr.getD 0, further := 0 } }
  | some f =>
      if code.takesPlace then
        { ch with fault := some { code, piece := none, peer := none, addr := ch.addr.getD 0, further := f.more.further } }
      else { ch with fault := some f.more }

/-- The peer-class faults, which stop a channel in every case (R114). -/
def FaultCode.peerClass : FaultCode → Bool
  | .peerLost | .peerRestarted | .peerLeft | .isolated => true
  | .badDescriptor | .refusedAccess | .refusedRange | .remoteLocal | .localBus | .timeout | .waitExpired
  | .ringWrite => false

/-! ## Ready list (R111) -/

/-- The bytes of the descriptor copy; empty while it is absent. -/
def Channel.desc (ch : Channel) : List Byte := ch.copy.getD []

/-- The peer of a PUT or GET copy, as a station number. -/
def Channel.peer (ch : Channel) : Station := Fin.ofNat 16 (descPeer ch.desc)

/-- The in-flight limit: 4, or 1 with ORDERED (R111, R113). -/
def Channel.inFlightLimit (ch : Channel) : Nat := if descOrdered ch.desc then 1 else Config.entriesPerPeer

/-- Channel `c` qualifies for the ready list (R111). -/
def State.qualifies (s : State) (c : Chan) : Bool :=
  let ch := s.chan c
  ch.state = .running && ch.flag = .none && ch.next < descPieces ch.desc && ch.owned < ch.inFlightLimit
    && s.entriesTo ch.peer < Config.entriesPerPeer

/-- The test for the ready list, made of every channel: who stops qualifying is removed, who comes to qualify is
appended, several at once in increasing channel number (R111). -/
def State.retestReady (s : State) : State :=
  { s with readyList := s.readyList.filter s.qualifies
      ++ allChans.filter fun c => s.qualifies c && !s.readyList.contains c }

/-! ## Piece outcomes (R114, R115) -/

/-- How an entry retires (R147). -/
inductive PieceOutcome where
  | done
  | failed (code : FaultCode)
  | aborted
deriving DecidableEq, Repr

/-- A failed piece with `code` stops a channel whose ending flag is none (R114). -/
def Channel.stopsOn (ch : Channel) (code : FaultCode) : Bool := code.peerClass || descStopOnFault ch.desc

/-- The ending flag becomes STOPPING; a RUNNING channel enters DRAINING (R115). -/
def Channel.stop (ch : Channel) : Channel :=
  { ch with flag := .stopping, state := if ch.state = .running then .draining else ch.state }

/-- A channel counts a retired piece (R104, R114). -/
def Channel.applyOutcome (ch : Channel) (o : PieceOutcome) (piece : Nat) (peer : Station) : Channel :=
  let ch := { ch with owned := ch.owned - 1 }
  match o with
  | .done => { ch with done := ch.done + 1 }
  | .aborted => ch
  | .failed code =>
      let ch := Channel.pieceFault { ch with failed := ch.failed + 1 } code piece peer
      if ch.flag = .none && ch.stopsOn code then ch.stop else ch

/-! ## Into COMPLETING and out of it (R116 to R120) -/

/-- A channel whose descriptor ends now (R116): RUNNING or DRAINING, no entries owned, every piece issued or the ending
flag set. -/
def Channel.ends (ch : Channel) : Bool :=
  (ch.state = .running || ch.state = .draining) && ch.owned = 0
    && (ch.flag ≠ .none || descPieces ch.desc ≤ ch.next)

/-- The status of an ended PUT or GET (R116). -/
def Channel.endingStatus (ch : Channel) : PendingStatus :=
  match ch.flag with
  | .aborting => .aborted
  | .stopping => .faulted
  | .none => if ch.failed = 0 then .done else .partly

/-- A record is due (R118). -/
def Channel.recordIsDue (ch : Channel) (status : PendingStatus) : Bool :=
  match status with
  | .faulted | .aborted => true
  | .done | .partly => descNotify ch.desc

/-- The record's fields, fixed at the entry into COMPLETING (R118). -/
def Channel.fixRecord (ch : Channel) (c : Chan) (status : PendingStatus) : Record :=
  { chan := c, status, code := ch.fault.map (·.code), done := ch.done, failed := ch.failed, addr := ch.addr.getD 0
    tagWord := match ch.copy with | some d => descTagWord d | none => [0#8, 0#8, 0#8, 0#8] }

/-! ## The ring (R165, R166) -/

/-- The bytes of a completion record (section 10.4). -/
def Record.bytes (r : Record) : List Byte :=
  [BitVec.ofNat 8 r.chan.val, BitVec.ofNat 8 r.status.code, BitVec.ofNat 8 ((r.code.map FaultCode.code).getD 0)]
    ++ bytesOfNat 3 r.done ++ bytesOfNat 3 r.failed ++ bytesOfNat 3 r.addr ++ r.tagWord

/-- Records in the ring: producer minus consumer, modulo 65536 (R165). -/
def RingUnit.fill (r : RingUnit) : Nat := (r.producer - r.consumer).toNat

/-- The ring has room (R165). -/
def RingUnit.hasRoom (r : RingUnit) : Bool :=
  match r.config with
  | none => false
  | some g => r.fill < g.size

/-- The position of the record of the present producer value (R165). -/
def RingUnit.position (r : RingUnit) : Nat :=
  match r.config with
  | none => 0
  | some g => g.base + 16 * (r.producer.toNat % g.size)

/-- RECORD_WRITE_ISSUE: the record of the head of the ring wait list is issued (R166). -/
def State.recordWriteIssue (s : State) : Option State :=
  match s.ring.waitList, s.ring.inProgress with
  | c :: rest, none =>
      if s.ring.hasRoom then
        match (s.chan c).record with
        | none => none
        | some r =>
            some ({ s with ring := { s.ring with waitList := rest, inProgress := some c } }.queueOutbound
              { requester := .record c, addr := s.ring.position, length := 16, bytes := r.bytes })
      else none
  | _, _ => none

/-- The test for a record write, made when a channel is appended to the ring wait list, when a record write ends, and when
a consumer write is accepted (R166). -/
def State.testRecordWrite (s : State) : State := s.recordWriteIssue.getD s

/-! ## Into COMPLETING and out of it: the steps (R117 to R120) -/

/-- Pending status, record due, the record and chaining cancelled are cleared on the way out of COMPLETING (R119). -/
def Channel.outOfCompleting (ch : Channel) : Channel :=
  { ch with pending := none, recordDue := false, record := none, chainCancelled := false }

/-- A fetch of 32 bytes from `addr` (R108, R119). -/
def fetchAccess (c : Chan) (addr : Nat) : Access := { requester := .fetch c, addr, length := 32, bytes := [] }

/-- A channel begins the descriptor at `addr` (R104, R108, R119). -/
def Channel.begin (ch : Channel) (addr : Nat) : Channel :=
  { ch with state := .fetching, addr := some addr, copy := none, next := 0, issued := 0, done := 0, failed := 0,
            owned := 0, flag := .none, chainCancelled := false, fault := none }

/-- A channel enters FETCHING at `addr`, its fetch appended to the outbound access queue (R108, R119). -/
def State.beginFetch (s : State) (c : Chan) (addr : Nat) : State :=
  (s.modChan c fun ch => ch.begin addr).queueOutbound (fetchAccess c addr)

/-- A channel leaves COMPLETING with a status that chains: to the next descriptor, or to IDLE (R119, R122). -/
def State.chainOrIdle (s : State) (c : Chan) (chains : Bool) (addr : Nat) : State :=
  if chains then s.beginFetch c addr else s.modChan c fun ch => { ch with state := .idle }

/-- A channel leaves COMPLETING by its pending status (R119). The mark advance comes first. A channel that enters IDLE
keeps the copy of its last descriptor (log 34). -/
def State.leaveCompleting (s : State) (c : Chan) : State :=
  let ch := s.chan c
  let chains := descChain ch.desc && !ch.chainCancelled
  let out := s.modChan c Channel.outOfCompleting
  match ch.pending with
  | some .done =>
      (if descAdvanceMark ch.desc then out.advanceMark else out).chainOrIdle c chains (descNext ch.desc)
  | some .partly => out.chainOrIdle c chains (descNext ch.desc)
  | some .faulted => out.modChan c fun ch => { ch with state := .faulted }
  | some .aborted => out.modChan c fun ch => { ch with state := .idle }
  | none => out.modChan c fun ch => { ch with state := .idle }

/-- A channel enters COMPLETING: with a record due it joins the ring wait list, and the test for a record write is made
(R166); with none it takes its next step at once (R118). -/
def State.complete (s : State) (c : Chan) (status : PendingStatus) : State :=
  let ch := s.chan c
  let due := ch.recordIsDue status
  let s := s.setChan c { ch with
    state := .completing, pending := some status, recordDue := due
    record := if due then some (ch.fixRecord c status) else none }
  if due then { s with ring := { s.ring with waitList := s.ring.waitList ++ [c] } }.testRecordWrite
  else s.leaveCompleting c

/-- The record is lost: RING-WRITE, FAULTED, no mark advance, no chain (R120). -/
def State.loseRecord (s : State) (c : Chan) : State :=
  s.modChan c fun ch => { (Channel.channelFault ch .ringWrite none).outOfCompleting with state := .faulted }

/-- A channel fault, then COMPLETING with status FAULTED (R109, R117, R126). -/
def State.failChannel (s : State) (c : Chan) (code : FaultCode) (peer : Option Station) : State :=
  (s.modChan c fun ch => { Channel.channelFault ch code peer with waitTimer := .stopped }).complete c .faulted

/-! ## Piece hand-over (R96, R112) -/

/-- The entry given to a channel for its next piece, before its first state (R96, R129). -/
def Channel.nextEntry (ch : Channel) (c : Chan) : Entry :=
  let d := ch.desc
  { state := if descKind d = 0 then .loading else .waitingCredit
    chan := c, piece := ch.next, peer := ch.peer
    kind := if descKind d = 0 then .write else .read
    window := descWindow d
    offset := (pieceRemote d ch.next).toNat
    addr := (pieceLocal d ch.next).toNat
    length := descLength d
    seq := none, attempts := 0, replyTimer := .stopped, aborting := false, retireReason := none
    inTransmission := false, buffer := [] }

/-- A channel has issued its next piece (R112). -/
def Channel.issueOne (ch : Channel) : Channel :=
  { ch with
    next := ch.next + 1, issued := ch.issued + 1, owned := ch.owned + 1
    state := if descPieces ch.desc ≤ ch.next + 1 then .draining else ch.state }

end Sys2Proof.Machine
end

