-- ==== Sys2Proof/Machine/Table.lean ====
section
/-! DEFINITION. The transaction table's shared operations: retirement, joining and leaving the credit wait list,
sequences and low-water, matching of replies (chapter 8). -/
namespace Sys2Proof.Machine

/-- An entry retires (R147, steps 1 to 3): it becomes FREE, its outcome is reported to its channel, the ready list is
tested. Step 4, allocation, is a step of the part itself (Machine/Settle.lean). -/
def State.retire (s : State) (t : Tag) (o : PieceOutcome) : State :=
  match s.entry t with
  | none => s
  | some e =>
      ((s.setEntry t none).modChan e.chan fun ch => ch.applyOutcome o e.piece e.peer).retestReady

/-- Failed with `code`, or aborted if the entry carries the aborting mark (R45, R55, R144, R146). -/
def Entry.failedOrAborted (e : Entry) (code : FaultCode) : PieceOutcome := if e.aborting then .aborted else .failed code

/-- An entry enters WAITING-CREDIT at the end of its peer's credit wait list (R53). -/
def State.joinWaitList (s : State) (t : Tag) (p : Station) : State :=
  (s.modEntry t fun e => { e with state := .waitingCredit, replyTimer := .stopped }).modPeer p
    fun q => { q with waitList := q.waitList ++ [t] }

/-- A tag leaves the credit wait list of `p`, wherever it stands (R53). -/
def State.leaveWaitList (s : State) (t : Tag) (p : Station) : State :=
  s.modPeer p fun q => { q with waitList := without q.waitList t }

/-- A spent credit comes back to the held credits at `p`, up to C (R52). -/
def State.returnCredit (s : State) (p : Station) : State :=
  s.modPeer p fun q => { q with held := if q.held < s.creditCap then q.held + 1 else q.held }

/-! ## Sequences (R133, R134) -/

/-- The sequences carried by the entries to `p`. -/
def State.carried (s : State) (p : Station) : List Byte :=
  allTags.filterMap fun t => match s.entry t with
    | some e => if e.peer = p then e.seq else none
    | none => none

/-- The first value from `n` on that is not among `used`, looking at no more than `fuel` values passed over (R133). -/
def freshSeq (used : List Byte) : Nat → Byte → Byte
  | 0, n => n
  | fuel + 1, n => if used.contains n then freshSeq used fuel (n + 1#8) else n

/-- The sequence an entry to `p` takes on its first credit (R133). -/
def State.takeSeq (s : State) (p : Station) : Byte := freshSeq (s.carried p) 16 (s.peer p).nextSeq

/-- The age of a sequence at a peer (R134). -/
def seqAge (next seq : Byte) : Nat := (next - seq).toNat

/-- The greatest age among the sequences carried to a peer; absent when none is carried (R134). -/
def oldestAge (next : Byte) : List Byte → Option Nat
  | [] => none
  | q :: rest =>
      match oldestAge next rest with
      | none => some (seqAge next q)
      | some a => some (max a (seqAge next q))

/-- The low-water of a request to `p` (R134). -/
def State.lowWater (s : State) (p : Station) : Byte :=
  let next := (s.peer p).nextSeq
  match oldestAge next (s.carried p) with
  | none => next
  | some a => next - BitVec.ofNat 8 (min a 128)

/-! ## Replies (R137) -/

/-- A reply as the transaction table sees it. -/
structure ReplyHeard where
  source : Station
  kind : ReqKind
  tag : Tag
  seq : Byte
  echo : Byte
  status : ReplyStatus
  payload : List Byte
deriving DecidableEq, Repr

/-- The reply matches the entry `e` with the reply's tag (R137). -/
def State.replyMatches (s : State) (r : ReplyHeard) (e : Entry) : Bool :=
  r.source = e.peer && e.seq = some r.seq && s.station.incarnation = some r.echo && r.kind = e.kind
    && (r.kind = .write || r.status ≠ .done || r.payload.length = e.length)
    && (e.state = .waitingCredit || e.state = .queued || e.state = .sent)

/-- The entry leaves the state in which the reply finds it: the timer stops, the list or the request queue loses it,
and a credit spent on a retry comes back (R138, R139, R59 step 1). -/
def State.leaveForReply (s : State) (t : Tag) (e : Entry) : State :=
  match e.state with
  | .waitingCredit => s.leaveWaitList t e.peer
  | .queued => (s.withdrawRequest t).returnCredit e.peer
  | .sent => s.modEntry t fun e => { e with replyTimer := .stopped }
  | .loading | .storing => s

/-- The store of a GET piece (R141). -/
def storeAccess (t : Tag) (e : Entry) (payload : List Byte) : Access :=
  { requester := .store t, addr := e.addr, length := e.length, bytes := payload }

/-- The load of a PUT piece (R129). -/
def loadAccess (t : Tag) (e : Entry) : Access := { requester := .load t, addr := e.addr, length := e.length, bytes := [] }

/-- A matched NO-CREDIT, after the entry has left its state (R59 steps 2 and 3, R144). -/
def State.settleNoCredit (s : State) (t : Tag) (e : Entry) : State :=
  let s := s.modPeer e.peer fun q => { q with held := 0 }
  if e.aborting then s.retire t .aborted else s.joinWaitList t e.peer

/-- A matched DONE to a READ: the payload is stored, unless the entry carries the aborting mark (R138, R141, R144). -/
def State.settleRead (s : State) (t : Tag) (e : Entry) (payload : List Byte) : State :=
  if e.aborting then s.retire t .aborted
  else
    (s.modEntry t fun e => { e with state := .storing, replyTimer := .stopped, buffer := payload }).queueOutbound
      (storeAccess t e payload)

/-- A matching reply settles its entry by status and kind (R138, R139, R144, R59). -/
def State.settleReply (s : State) (r : ReplyHeard) (e : Entry) : State :=
  let s := s.leaveForReply r.tag e
  match r.status with
  | .done => if e.kind = .write then s.retire r.tag .done else s.settleRead r.tag e r.payload
  | .refusedAccess => s.retire r.tag (.failed .refusedAccess)
  | .refusedRange => s.retire r.tag (.failed .refusedRange)
  | .localError => s.retire r.tag (.failed .remoteLocal)
  | .noCredit => s.settleNoCredit r.tag e

/-- A reply reaches the transaction table: it settles the entry it matches, and is discarded if it matches none
(R137). -/
def State.takeReply (s : State) (r : ReplyHeard) : State :=
  match s.entry r.tag with
  | none => s
  | some e => if s.replyMatches r e then s.settleReply r e else s

end Sys2Proof.Machine
end

