-- ==== Sys2Proof/Machine/Settle.lean ====
section
/-! DEFINITION. The steps the part takes by itself: rows ENTRY_ALLOCATION, CREDIT_HANDING, ASKING, GRANTING,
DESCRIPTOR_END, RECORD_WRITE_ISSUE, LEAVE_QUEUED and ACCESS_GRANT of the table, the retirement of R55 and the WAIT
evaluation of R155. Each is a function that answers the next state where its conditions hold and nothing where they do
not. `settle` takes them, in a fixed order, until none is left to take: the rules say that each is taken as soon as its
conditions hold (log 1, log 17). -/
namespace Sys2Proof.Machine

/-! ## Waiting at an ABSENT peer (R55) -/

/-- The fault code of an ABSENT peer (R55). -/
def AbsentReason.code : AbsentReason → FaultCode
  | .silent => .peerLost
  | .left => .peerLeft

/-- Entry `t` waits for a credit at an ABSENT peer: it leaves the list and retires (R55). -/
def State.absentRetire (s : State) (t : Tag) : Option State :=
  match s.entry t with
  | none => none
  | some e =>
      match (s.peer e.peer).state with
      | .absent reason =>
          if e.state = .waitingCredit then
            some ((s.leaveWaitList t e.peer).retire t (e.failedOrAborted reason.code))
          else none
      | .unknown | .present => none

/-! ## WAIT evaluation (R155) -/

/-- What the mark unit reports of a member. -/
inductive WaitReport where
  | satisfied
  | lost (peer : Station)
  | still
deriving DecidableEq, Repr

/-- A masked station has reached the target (R155 case 3). -/
def State.stationReached (s : State) (target : Word) (p : Station) : Bool :=
  if p.val = s.own then markReached s.marks.own target
  else
    match (s.peer p).state, (s.peer p).mark with
    | .present, some m => markReached m target
    | _, _ => false

/-- A masked peer is ABSENT (R155 case 2). -/
def State.peerAbsent (s : State) (p : Station) : Bool :=
  decide (p.val ≠ s.own) && match (s.peer p).state with
    | .absent _ => true
    | .unknown | .present => false

/-- The evaluation of a member without a notice that fails it (R155 cases 2 to 4). -/
def State.evaluate (s : State) (m : WaitMember) : WaitReport :=
  match allStations.find? fun p => inMask m.mask p && s.peerAbsent p with
  | some p => .lost p
  | none =>
      if allStations.all fun p => !inMask m.mask p || s.stationReached m.target p then .satisfied else .still

/-- A WAITING channel learns that its WAIT is satisfied (R117). -/
def State.waitSatisfied (s : State) (c : Chan) : State :=
  ((s.setWait c none).modChan c fun ch => { ch with waitTimer := .stopped }).complete c .done

/-- A WAITING channel learns that a masked peer is lost (R117, R155). -/
def State.waitLost (s : State) (c : Chan) (p : Station) : State :=
  (s.setWait c none).failChannel c .peerLost (some p)

/-- A channel learns what the mark unit reports of it. -/
def State.takeReport (s : State) (c : Chan) : WaitReport → State
  | .satisfied => s.waitSatisfied c
  | .lost p => s.waitLost c p
  | .still => s

/-- The evaluation of channel `c`, if it settles the WAIT (R155). -/
def State.waitReport (s : State) (c : Chan) : Option (Chan × WaitReport) :=
  match s.waitOf c with
  | none => none
  | some m =>
      match s.evaluate m with
      | .still => none
      | r => some (c, r)

/-- The reports of one evaluation of the wait set, every member on the same state, in increasing channel number (R156:
the members evaluated on one event are independent of one another). -/
def State.waitReports (s : State) : List (Chan × WaitReport) := allChans.filterMap s.waitReport

/-- The channels of some reports leave the wait set (R154). -/
def State.leaveWaitSet (s : State) (reports : List (Chan × WaitReport)) : State :=
  reports.foldl (fun s r => s.setWait r.1 none) s

/-- Delivers reports in their order. A report may make a channel advance the own mark, which is an event of its own: the
members still in the set are evaluated on it, and their reports follow those already made (R156). -/
def State.deliverReports : Nat → List (Chan × WaitReport) → State → State
  | 0, _, s => s
  | _ + 1, [], s => s
  | fuel + 1, (c, r) :: rest, s =>
      let s := s.takeReport c r
      State.deliverReports fuel (rest ++ s.waitReports) (s.leaveWaitSet s.waitReports)

/-- The evaluation of the wait set, if it settles some WAIT. Each of the eight channels is reported at most once. -/
def State.judgeWaits (s : State) : Option State :=
  match s.waitReports with
  | [] => none
  | r :: rest => some (State.deliverReports 8 (r :: rest) (s.leaveWaitSet (r :: rest)))

/-! ## Ending, handing, asking, allocation -/

/-- DESCRIPTOR_END: channel `c` ends its descriptor (R116). -/
def State.descriptorEnd (s : State) (c : Chan) : Option State :=
  if (s.chan c).ends then some (s.complete c (s.chan c).endingStatus) else none

/-- CREDIT_HANDING: a held credit at `p` is handed to the head of its credit wait list (R54, R132, R133). -/
def State.creditHanding (s : State) (p : Station) : Option State :=
  let q := s.peer p
  match q.waitList with
  | [] => none
  | t :: rest =>
      if q.held = 0 then none
      else
        match s.entry t with
        | none => none
        | some e =>
            if e.state = .waitingCredit && e.peer = p then
              match e.seq with
              | some _ =>
                  some (((s.setPeer p { q with held := q.held - 1, waitList := rest }).setEntry t
                    (some { e with state := .queued, inTransmission := false })).queueRequest t)
              | none =>
                  let n := s.takeSeq p
                  some (((s.setPeer p { q with held := q.held - 1, waitList := rest, nextSeq := n + 1#8 }).setEntry t
                    (some { e with state := .queued, inTransmission := false, seq := some n })).queueRequest t)
            else none

/-- The wanted count of an ASK to `p` (R56). -/
def State.wanted (s : State) (p : Station) : Nat := min s.creditCap (s.peer p).waitList.length

/-- Queues an ASK to `p`: asked becomes yes, the ask timer starts (R56, R57). -/
def State.ask (s : State) (p : Station) : State :=
  (s.modPeer p fun q => { q with asked := true, askTimer := .running s.replyTimeout }).queueControl (.ask p (s.wanted p))

/-- ASKING: the three conditions of R56 hold at `p`. -/
def State.asking (s : State) (p : Station) : Option State :=
  let q := s.peer p
  if q.waitList ≠ [] ∧ q.held = 0 ∧ q.asked = false then some (s.ask p) else none

/-- The lowest-numbered FREE entry (R129). -/
def State.freeEntry (s : State) : Option Tag := allTags.find? fun t => (s.entry t).isNone

/-- A piece is issued into the FREE entry `t` by channel `c`, which stood at the head of the ready list (R112, R129). -/
def State.issue (s : State) (t : Tag) (c : Chan) : State :=
  let ch := s.chan c
  let e := ch.nextEntry c
  let s := (s.setEntry t (some e)).setChan c ch.issueOne
  let s := match e.kind with
    | .write => s.queueOutbound (loadAccess t e)
    | .read => s.joinWaitList t e.peer
  s.retestReady

/-- ENTRY_ALLOCATION: a FREE entry goes to the channel at the head of the ready list (R129). -/
def State.entryAllocation (s : State) : Option State :=
  match s.readyList, s.freeEntry with
  | c :: rest, some t =>
      if (s.chan c).copy.isSome then some ({ s with readyList := rest }.issue t c) else none
  | _, _ => none

/-! ## Granting -/

/-- GRANTING: the oldest asker is granted what F, C and its wanted count allow (R63). -/
def State.granting (s : State) : Option State :=
  match s.credit.askList with
  | [] => none
  | a :: rest =>
      if s.inState .online && 1 ≤ s.freeCapacity then
        let g := min (min s.freeCapacity (s.creditCap - s.grantCount a.peer)) a.wanted
        let s := s.setGrant a.peer (s.grantCount a.peer + g)
        some ({ s with credit := { s.credit with askList := rest } }.queueControl
          (.grant a.peer g ((s.peer a.peer).incarnation.getD 0#8)))
      else none

/-! ## Drain and port -/

/-- LEAVE_QUEUED: the drain of LEAVING is done and the LEAVE is queued, once (R11). DESIGN CHOICE (log 30): a refusal
already taken into the transmit buffer does not hold the LEAVE back; only the reply queue is tested. -/
def State.leaveQueued (s : State) : Option State :=
  if s.inState .leaving && s.occupied = 0 && s.bus.replyQueue.isEmpty && !s.leavePending then
    some (s.queueControl .leave)
  else none

/-- A slot whose access is granted enters ACCESSING (R80, R161). -/
def State.startAccess (s : State) (a : Access) : State :=
  match a.requester with
  | .inboundWrite i | .inboundRead i => s.modSlot i fun x => { x with state := .accessing }
  | .fetch _ | .load _ | .store _ | .record _ => s

/-- Grants the head of the outbound queue. -/
def State.grantOutbound (s : State) (a : Access) (rest : List Access) : State :=
  { s with port := { s.port with
      outQueue := rest, current := some { access := a, dropped := false }, lastSide := .outbound } }

/-- Grants the head of the inbound queue. -/
def State.grantInbound (s : State) (a : Access) (rest : List Access) : State :=
  { s with port := { s.port with
      inQueue := rest, current := some { access := a, dropped := false }, lastSide := .inbound } }.startAccess a

/-- ACCESS_GRANT: the port is idle and an access waits (R161). -/
def State.accessGrant (s : State) : Option State :=
  if s.port.current.isSome then none
  else
    match s.port.outQueue, s.port.inQueue with
    | [], [] => none
    | a :: rest, [] => some (s.grantOutbound a rest)
    | [], b :: rest => some (s.grantInbound b rest)
    | a :: resta, b :: restb =>
        match s.port.lastSide with
        | .inbound => some (s.grantOutbound a resta)
        | .outbound => some (s.grantInbound b restb)

/-! ## Settling -/

/-- The first step of the part itself that is due, in the fixed order of log 17. -/
def State.ownStep (s : State) : Option State :=
  (allTags.findSome? s.absentRetire) <|> s.judgeWaits <|> (allChans.findSome? s.descriptorEnd)
    <|> s.recordWriteIssue <|> (allStations.findSome? s.creditHanding) <|> (allStations.findSome? s.asking)
    <|> s.entryAllocation <|> s.granting <|> s.leaveQueued <|> s.accessGrant

/-- At most `fuel` steps of the part itself. -/
def State.settleFor : Nat → State → State
  | 0, s => s
  | fuel + 1, s =>
      match s.ownStep with
      | none => s
      | some s' => State.settleFor fuel s'

/-- The part takes its own steps until none is due. 256 is more than one event can make due (log 17). -/
def State.settle (s : State) : State := s.settleFor 256

/-- A step of the part itself taken on its own row: the step if it is due, then whatever else is due. -/
def State.ownRow (s : State) (step : Option State) : State := (step.getD s).settle

end Sys2Proof.Machine
end

