-- ==== Sys2Proof/Machine/Station.lean ====
section
/-! DEFINITION. What befalls the whole station: the check of the configuration, resets, session end, entry into LEAVING,
isolation, abort of a channel's entries (chapter 1, R12, R14, R126, R142, R146, R163). -/
namespace Sys2Proof.Machine

/-! ## Configuration (R1, R2) -/

/-- The eight bytes read: an unanswered byte is 0xFF (R1). -/
def readConfig (answers : List (Option Byte)) : ConfigBytes :=
  let at' (i : Nat) : Byte := (answers.getD i none).getD 0xFF#8
  { stationNumber := at' 0, stationCount := at' 1, rateAndCap := at' 2, presenceInterval := at' 3
    silenceMultiplier := at' 4, replyTimeout := at' 5, attemptLimit := at' 6, checkByte := at' 7 }

/-- Bytes 0 to 7 sum to 0x5A modulo 256 (R2). -/
def ConfigBytes.sumGood (b : ConfigBytes) : Bool :=
  b.stationNumber + b.stationCount + b.rateAndCap + b.presenceInterval + b.silenceMultiplier + b.replyTimeout
    + b.attemptLimit + b.checkByte = 0x5A#8

/-- Whether each of bytes 0 to 6 holds an accepted value (section 1.1). -/
def ConfigBytes.fieldsGood (b : ConfigBytes) : List Bool :=
  [ b.stationNumber.toNat ≤ 15 && b.stationNumber.toNat < b.stationCount.toNat,
    2 ≤ b.stationCount.toNat && b.stationCount.toNat ≤ 16,
    b.rateAndCap.toNat ≤ 15,
    2 ≤ b.presenceInterval.toNat && b.presenceInterval.toNat ≤ 32 && b.presenceInterval.toNat % 2 = 0,
    3 ≤ b.silenceMultiplier.toNat && b.silenceMultiplier.toNat ≤ 8,
    2 ≤ b.replyTimeout.toNat && b.replyTimeout.toNat ≤ 64,
    1 ≤ b.attemptLimit.toNat && b.attemptLimit.toNat ≤ 8 ]

/-- The check of R2. -/
def ConfigBytes.check (b : ConfigBytes) : CheckResult :=
  if !b.sumGood then .badSum
  else
    match b.fieldsGood.findIdx? (fun ok => !ok) with
    | some i => .badField i
    | none => .good

/-! ## Resets (R5, R6) -/

/-- Every block but the configuration latch, the port's running access and the host port at its reset contents. -/
def State.clearBlocks (s : State) : State :=
  { s with
    station := .cleared, marks := .cleared, bus := .cleared, peers := .replicate 16 .cleared, changes := 0#16
    credit := .cleared, windows := .replicate 8 .cleared, inbound := .cleared, channels := .replicate 8 .cleared
    readyList := [], entries := .replicate 16 none, ring := .cleared }

/-- A start reset begins (R5): the bytes of a write cut short are as the memory took them, the local bus is released,
every block holds its reset contents. DEDUCED (log 35): a descriptor fetch in progress is cut short with every other
access (R5, R161, R163) and does not run out, as R125's row for both resets has it. -/
def State.beginStartReset (s : State) (kind : StartResetKind) (cut : List Bool) : State :=
  { (s.applyCut cut).clearBlocks with phase := .inReset kind, port := .cleared, host := .cleared }

/-- The result of the access in progress is to be dropped (R163). -/
def CurrentAccess.drop (c : CurrentAccess) : CurrentAccess := { c with dropped := true }

/-- A soft reset (R6, R163, R184): a running access runs on with its result dropped, CMD keeps its word. In CONFIG-FAULT
the configuration memory is read again; in every other state the station enters OFFLINE. -/
def State.softResetBlocks (s : State) : State :=
  let wasFault := s.inState .configFault
  let s := { s.clearBlocks with
    latch := { s.latch with cause := .soft }
    port := { LocalPort.cleared with current := s.port.current.map CurrentAccess.drop }
    host := { HostPort.cleared with cmd := s.host.cmd } }
  if wasFault then { s with phase := .reading } else s.enterStation .offline

/-- The configuration read ends: check, then OFFLINE or CONFIG-FAULT (R2). -/
def State.finishConfigRead (s : State) (answers : List (Option Byte)) : State :=
  let b := readConfig answers
  let s := { s with phase := .running, latch := { s.latch with bytes := b, check := some b.check } }
  s.enterStation (if b.check = .good then .offline else .configFault)

/-! ## Session end (R12) and the parts it shares with isolation -/

/-- The peer table, the change set and the credit unit at their reset contents (R12, R14 step 5). -/
def State.clearPeers (s : State) : State :=
  { s with peers := .replicate 16 .cleared, changes := 0#16, credit := .cleared }

/-- Every watch notice becomes idle (R88). -/
def State.clearNotices (s : State) : State :=
  allWindows.foldl (fun s w => s.setWindowAt w { s.window w with notice := none }) s

/-- The bus interface leaves the bus: queues empty, slot reference cold, clash count 0 (section 2.7). -/
def State.leaveBus (s : State) : State := { s with bus := .cleared }

/-- The join listen and presence timers stop. -/
def State.stopStationTimers (s : State) : State :=
  { s with station := { s.station with joinListen := .stopped, presence := .stopped } }

/-- The session ends (R12). -/
def State.endSession (s : State) : State :=
  s.clearPeers.clearNotices.leaveBus.stopStationTimers.enterStation .offline

/-! ## Entry into LEAVING (R11) -/

/-- Every asked mark is cleared and every ask timer stops (R11). -/
def State.clearAsked (s : State) : State :=
  allStations.foldl (fun s p => s.modPeer p fun q => { q with asked := false, askTimer := .stopped }) s

/-- The entry into LEAVING (R11). -/
def State.enterLeaving (s : State) : State :=
  let s := s.enterStation .leaving
  let s := { s with credit := { s.credit with askList := [], grants := .replicate 16 0 } }
  (s.withdrawControl Control.isCredit).clearAsked

/-! ## Isolation (R14, R126, R146, R85) -/

/-- Channel `ch` raises ISOLATED and its ending flag becomes STOPPING; a RUNNING one enters DRAINING (R126). -/
def Channel.isolateBusy (ch : Channel) : Channel :=
  let ch := Channel.channelFault ch .isolated none
  { ch with flag := .stopping, state := if ch.state = .running then .draining else ch.state }

/-- What isolation does to channel `c` before its entries retire: faults, flags, the end of a WAIT's evaluation, the
end of chaining (R126). -/
def State.isolateChannel (s : State) (c : Chan) : State :=
  let ch := s.chan c
  match ch.state with
  | .idle | .faulted => s
  | .fetching | .running | .draining => s.setChan c ch.isolateBusy
  | .waiting => (s.setWait c none).setChan c { Channel.channelFault ch .isolated none with waitTimer := .stopped }
  | .completing => s.setChan c { ch with chainCancelled := true }

/-- A channel that isolation ends now: WAITING, or RUNNING or DRAINING without entries (R126). -/
def Channel.endsIsolated (ch : Channel) : Bool :=
  match ch.state with
  | .waiting => true
  | .running | .draining => ch.owned = 0
  | .idle | .fetching | .completing | .faulted => false

/-- Channel `c` enters COMPLETING with status FAULTED if isolation ends it now (R126). -/
def State.endIsolated (s : State) (c : Chan) : State :=
  if (s.chan c).endsIsolated then s.complete c .faulted else s

/-- The channels below `c` that need no retirement to end do so in increasing number (R166), if the next retirement is
the one that ends `c` (log 16). -/
def State.endIsolatedBelow (s : State) (c : Chan) : State :=
  if (s.chan c).owned ≤ 1 then (allChans.filter fun d => d < c).foldl State.endIsolated s else s

/-- What isolation does to entry `t` (R146). A retirement that leaves its channel without entries ends it before the next
one begins (R116, R147). -/
def State.isolateEntry (s : State) (t : Tag) : State :=
  match s.entry t with
  | none => s
  | some e =>
      match e.state with
      | .waitingCredit | .queued | .sent =>
          ((s.endIsolatedBelow e.chan).retire t (e.failedOrAborted .isolated)).endIsolated e.chan
      | .loading => s.setEntry t (some { e with retireReason := some .isolated })
      | .storing => s

/-- Occupied slots and their waiting accesses are discarded; a running inbound access runs on, its result dropped
(R14 step 2, R85, R163). -/
def State.discardSlots (s : State) : State :=
  { s with
    inbound := .cleared
    port := { s.port with
      inQueue := []
      current := s.port.current.map fun c => match c.access.requester with
        | .inboundWrite _ | .inboundRead _ => c.drop
        | .fetch _ | .load _ | .store _ | .record _ => c } }

/-- The entry into ISOLATED (R14). The channels take their faults and flags; then the entries retire in the order of their
tags, each retirement ending its channel if it was the last (R147). The channels that end without a retirement enter
COMPLETING in increasing number: each before the first retirement that ends a higher-numbered channel, and the rest
when all entries are settled (R166; log 16). -/
def State.isolate (s : State) : State :=
  let s := s.leaveBus.discardSlots.clearPeers.clearNotices.stopStationTimers.enterStation .isolated
  let s := allChans.foldl State.isolateChannel { s with readyList := [] }
  (allChans.foldl State.endIsolated (allTags.foldl State.isolateEntry s)).settle

/-! ## Abort of a channel's entries (R142) -/

/-- Every entry of channel `c` gets the aborting mark; the waiting ones leave their credit wait lists (R142). -/
def State.markAborting (s : State) (c : Chan) : State :=
  allTags.foldl (fun s t => match s.entry t with
    | none => s
    | some e =>
        if e.chan = c then
          let s := s.setEntry t (some { e with aborting := true })
          if e.state = .waitingCredit then s.leaveWaitList t e.peer else s
        else s) s

/-- What the abort of channel `c` does to its entry `t` at once (R142). -/
def State.abortEntry (s : State) (c : Chan) (t : Tag) : State :=
  match s.entry t with
  | none => s
  | some e =>
      if e.chan = c && e.aborting then
        match e.state with
        | .waitingCredit => s.retire t .aborted
        | .queued =>
            if e.inTransmission then s else ((s.withdrawRequest t).returnCredit e.peer).retire t .aborted
        | .loading | .sent | .storing => s
      else s

/-- The abort of channel `c` in the transaction table: marks first, then each entry in the order of tags (R142, R147). -/
def State.abortEntries (s : State) (c : Chan) : State :=
  allTags.foldl (fun s t => (s.abortEntry c t).settle) (s.markAborting c)

/-- ABORT of a RUNNING or DRAINING channel (R121). -/
def State.abortRunning (s : State) (c : Chan) : State :=
  let s := s.modChan c fun ch =>
    { ch with flag := .aborting, state := if ch.state = .running then .draining else ch.state }
  (s.retestReady.abortEntries c).settle

end Sys2Proof.Machine
end

