-- ==== Sys2Proof/Machine/HostCommands.lean ====
section
/-! DEFINITION. Meanings of the host commands that are not READ commands (R174, R175 and the rules they name). -/
namespace Sys2Proof.Machine

/-- A command that the station state decides alone (R3, R175). -/
def State.inStateOnly (s : State) (st : StationState) (decision : State → State × ResultCode) : State × ResultCode :=
  if s.inState st then decision s else (s, .wrongState)

/-! ## Station commands -/

/-- The next sequence of every peer entry is set to 0 (R8). -/
def State.clearSequences (s : State) : State :=
  allStations.foldl (fun s p => s.modPeer p fun q => { q with nextSeq := 0#8 }) s

/-- The effects of an accepted JOIN (R8). -/
def State.enterJoining (s : State) (inc : Byte) : State :=
  let s := { s with
    station := { s.station with incarnation := some inc, joinListen := .running s.silenceTimeout }
    marks := { s.marks with own := 0#16 } }
  let s := s.clearSequences.enterStation .joining
  { s with bus := { s.bus with slotRef := .cold, clashCount := 0, line := .idle, slotClock := 0 } }.queueControl .join

/-- JOIN (R8). -/
def execJoin (operand : Byte) (s : State) : Result :=
  .next (s.takeCommand Config.codeJoin operand fun s => s.inStateOnly .offline fun s =>
    if s.ring.config.isSome && (s.param 0).toNat ≤ 255 then (s.enterJoining (lowByte (s.param 0)), .accepted)
    else (s, .badParameter))

/-- Every channel is IDLE or FAULTED (R10, R15). -/
def State.channelsAtRest (s : State) : Bool :=
  allChans.all fun c => (s.chan c).state = .idle || (s.chan c).state = .faulted

/-- LEAVE (R10, R11). -/
def execLeave (operand : Byte) (s : State) : Result :=
  .next (s.takeCommand Config.codeLeave operand fun s => s.inStateOnly .online fun s =>
    if s.channelsAtRest then (s.enterLeaving.settle, .accepted) else (s, .busy))

/-- CLEAR ISOLATION (R15). -/
def execClearIsolation (operand : Byte) (s : State) : Result :=
  .next (s.takeCommand Config.codeClearIsolation operand fun s => s.inStateOnly .isolated fun s =>
    if s.channelsAtRest && s.ring.waitList.isEmpty && s.ring.inProgress.isNone then
      (s.enterStation .offline, .accepted)
    else (s, .busy))

/-- SOFT RESET (R6). -/
def execSoftReset (operand : Byte) (s : State) : Result :=
  .next (s.takeCommand Config.codeSoftReset operand fun s => (s.softResetBlocks, .accepted))

/-! ## Setting up (R69, R164) -/

/-- The peer mask names only stations below N other than the own (R69). -/
def State.maskAccepted (s : State) (m : Word) : Bool :=
  allStations.all fun p => !inMask m p || (p.val < s.stationCount && p.val ≠ s.own)

/-- SET WINDOW (R69, R175). -/
def execSetWindow (operand : Byte) (s : State) : Result :=
  .next (s.takeCommand Config.codeSetWindow operand fun s => s.inStateOnly .offline fun s =>
    match windowOperand (BitVec.ofNat 8 (windowNumberOf operand)), rightsOfCode (operand.toNat / 64) with
    | some w, some rights =>
        if s.windowBase < Config.localSize && 1 ≤ s.windowLength && s.windowLength ≤ Config.offsetSize
            && s.windowBase + s.windowLength ≤ Config.localSize && s.maskAccepted (s.param 3) then
          (s.setWindowAt w
            { enabled := operand.getLsbD 4, base := s.windowBase, length := s.windowLength, rights
              mask := s.param 3, watch := operand.getLsbD 5, notice := none }, .accepted)
        else (s, .badParameter)
    | _, _ => (s, .badParameter))

/-- The ring sizes (R164). -/
def ringSizes : List Nat := [8, 16, 32, 64, 128, 256]

/-- SET RING (R164, R175). -/
def execSetRing (operand : Byte) (s : State) : Result :=
  .next (s.takeCommand Config.codeSetRing operand fun s => s.inStateOnly .offline fun s =>
    if s.param32 % 16 = 0 && s.param32 ≤ 0xFFFFF0 && ringSizes.contains s.ringSize
        && s.param32 + 16 * s.ringSize ≤ Config.localSize then
      ({ s with ring := { s.ring with
          config := some { base := s.param32, size := s.ringSize }, producer := 0#16, consumer := 0#16 } }, .accepted)
    else (s, .badParameter))

/-! ## Channels (R108, R121, R123) -/

/-- START (R108). -/
def execStart (operand : Byte) (s : State) : Result :=
  .next (s.takeCommand Config.codeStart operand fun s =>
    if s.inState .configFault then (s, .wrongState)
    else
      match chanOperand operand with
      | none => (s, .badParameter)
      | some c =>
          if (s.chan c).state ≠ .idle then (s, .busy)
          else if !s.inState .online then (s, .wrongState)
          else if s.param32 < Config.localSize && s.param32 % 32 = 0 then
            ((s.beginFetch c s.param32).settle, .accepted)
          else (s, .badParameter))

/-- ABORT of a channel in COMPLETING (R122). -/
def State.abortCompleting (s : State) (c : Chan) : State × ResultCode :=
  let ch := s.chan c
  if (ch.pending = some .done || ch.pending = some .partly) && descChain ch.desc && !ch.chainCancelled then
    (s.setChan c { ch with chainCancelled := true }, .accepted)
  else (s, .noEffect)

/-- ABORT of channel `c`, by its state and ending flag (R121). -/
def State.abortChannel (s : State) (c : Chan) : State × ResultCode :=
  let ch := s.chan c
  match ch.state, ch.flag with
  | .idle, _ | .faulted, _ => (s, .noEffect)
  | .fetching, .none => (s.setChan c { ch with flag := .aborting }, .accepted)
  | .fetching, .stopping | .fetching, .aborting => (s, .noEffect)
  | .running, .none | .draining, .none => (s.abortRunning c, .accepted)
  | .running, .stopping | .running, .aborting | .draining, .stopping | .draining, .aborting => (s, .noEffect)
  | .waiting, _ =>
      ((((s.setWait c none).setChan c { ch with waitTimer := .stopped }).complete c .aborted).settle, .accepted)
  | .completing, _ => s.abortCompleting c

/-- ABORT (R121, R122). -/
def execAbort (operand : Byte) (s : State) : Result :=
  .next (s.takeCommand Config.codeAbort operand fun s =>
    match chanOperand operand with
    | none => (s, .badParameter)
    | some c => s.abortChannel c)

/-- CLEAR (R123). -/
def execClear (operand : Byte) (s : State) : Result :=
  .next (s.takeCommand Config.codeClear operand fun s =>
    match chanOperand operand with
    | none => (s, .badParameter)
    | some c =>
        if (s.chan c).state = .faulted then
          (s.modChan c fun ch => { ch with state := .idle, fault := none, flag := .none, addr := none, copy := none },
            .accepted)
        else (s, .noEffect))

/-- ADVANCE MARK (R151, R152, R156). -/
def execAdvanceMark (operand : Byte) (s : State) : Result :=
  .next (s.takeCommand Config.codeAdvanceMark operand fun s => s.inStateOnly .online fun s =>
    (s.advanceMark.settle, .accepted))

/-- UNKNOWN_COMMAND (R174): a code that names no command gives BAD-PARAMETER and changes nothing else. A code that does
name one is not this row's event and changes nothing (log 20). -/
def execUnknownCommand (code operand : Byte) (s : State) : Result :=
  .next (if Config.commandCodes.contains code then s
    else s.takeCommand code operand fun s => (s, .badParameter))

end Sys2Proof.Machine
end

