-- ==== Sys2Proof/Machine/HostWrites.lean ====
section
/-! DEFINITION. Meanings of the host writes that are no commands (R169, R172, R181, R182). While the host port is silent
every write is discarded (R1, R171). -/
namespace Sys2Proof.Machine

/-- A consumer write of `v` lies from the consumer up to the producer (R169). -/
def RingUnit.accepts (r : RingUnit) (v : Word) : Bool := (v - r.consumer).toNat ≤ r.fill

/-- CONSUMER_WRITE (R169, R183): accepted, the test for a record write is made (R166); else MISUSE. -/
def execConsumerWrite (v : Word) (s : State) : Result :=
  .next (if s.phase = .running then
    if s.ring.accepts v then { s with ring := { s.ring with consumer := v } }.testRecordWrite.settle
    else { s with host := { s.host with misuseCause := true } }
  else s)

/-- ATTN_WRITE (R180, R181): a 1 in bit 4 clears STATION, a 1 in bit 5 clears MISUSE. -/
def execAttnWrite (w : Word) (s : State) : Result :=
  .next (if s.phase = .running then
    { s with host := { s.host with
      stationCause := s.host.stationCause && !w.getLsbD 4
      misuseCause := s.host.misuseCause && !w.getLsbD 5 } }
  else s)

/-- ATTNEN_WRITE (R182). -/
def execAttnenWrite (w : Word) (s : State) : Result :=
  .next (if s.phase = .running then { s with host := { s.host with attnen := w.extractLsb' 0 6 } } else s)

/-- The parameter register at a register address (section 11.2). -/
def paramAddress (addr : BitVec 7) : Option (Fin 4) :=
  match addr.toNat with
  | 0x09 => some 0
  | 0x0A => some 1
  | 0x0B => some 2
  | 0x0C => some 3
  | _ => none

/-- REGISTER_WRITE (R172): PARAM0 to PARAM3 store the word, every other address of this row discards it. The addresses
of CMD, ATTN, ATTNEN and RINGCONS are not this row's (log 20). -/
def execRegisterWrite (addr : BitVec 7) (w : Word) (s : State) : Result :=
  .next (if s.phase = .running then
    match paramAddress addr with
    | some k => { s with host := { s.host with params := s.host.params.set k w } }
    | none => s
  else s)

end Sys2Proof.Machine
end

