-- ==== Sys2Proof/Machine/Internal.lean ====
section
/-! DEFINITION. Meanings of the rows that are steps of the part itself. Each takes its step if it is due, and then
whatever else is due; a step that is not due changes nothing (log 1, log 2). -/
namespace Sys2Proof.Machine

/-- GRANTING (R63). -/
def execGranting (s : State) : Result := .next (s.ownRow s.granting)

/-- LEAVE_QUEUED (R11). -/
def execLeaveQueued (s : State) : Result := .next (s.ownRow s.leaveQueued)

/-- ASKING (R56). -/
def execAsking (p : Station) (s : State) : Result := .next (s.ownRow (s.asking p))

/-- CREDIT_HANDING (R54, R132, R133). -/
def execCreditHanding (p : Station) (s : State) : Result := .next (s.ownRow (s.creditHanding p))

/-- ENTRY_ALLOCATION (R129, R112). -/
def execEntryAllocation (s : State) : Result := .next (s.ownRow s.entryAllocation)

/-- DESCRIPTOR_END (R116, R118). -/
def execDescriptorEnd (c : Chan) (s : State) : Result := .next (s.ownRow (s.descriptorEnd c))

/-- ACCESS_GRANT (R161). -/
def execAccessGrant (s : State) : Result := .next (s.ownRow s.accessGrant)

/-- RECORD_WRITE_ISSUE (R166). -/
def execRecordWriteIssue (s : State) : Result := .next (s.ownRow s.recordWriteIssue)

end Sys2Proof.Machine
end

