-- ==== Sys2Proof/Machine/Inbound.lean ====
section
/-! DEFINITION. The service of requests that peers send: refusal, admission, arrival checks, reply, the end of an
inbound access (chapter 5, R65, R66). -/
namespace Sys2Proof.Machine

/-- A WRITE or READ as heard. -/
structure Request where
  source : Station
  inc : Byte
  kind : ReqKind
  tag : Tag
  seq : Byte
  low : Byte
  window : WindowNo
  offset : Nat
  length : Nat
  payload : List Byte
deriving DecidableEq, Repr

/-! ## Refusal NO-CREDIT (R66) -/

/-- The refusal of a request. -/
def Request.refusal (r : Request) : QueuedReply :=
  { owner := .refusal, dest := r.source, kind := r.kind, tag := r.tag, seq := r.seq, echo := r.inc
    status := .noCredit, payload := [] }

/-- A request is refused from a free refusal place; with none free it is discarded unanswered (R66). -/
def State.refuse (s : State) (r : Request) : State :=
  if s.credit.refusals < Config.refusalPlaces then
    { s with credit := { s.credit with refusals := s.credit.refusals + 1 } }.queueReply r.refusal
  else s

/-! ## Replies of slots (R82) -/

/-- The reply of a slot whose status is decided (R82). -/
def Slot.reply (x : Slot) (i : SlotNo) (status : ReplyStatus) : QueuedReply :=
  { owner := .slot i, dest := x.requester, kind := x.kind, tag := x.tag, seq := x.seq, echo := x.echo, status
    payload := if x.kind = .read && status = .done then x.buffer.take x.length else [] }

/-- Slot `i` takes its status, builds its reply and enters REPLY-QUEUED (R82). -/
def State.replySlot (s : State) (i : SlotNo) (status : ReplyStatus) : State :=
  match s.slot i with
  | none => s
  | some x =>
      (s.setSlot i (some { x with status := some status, state := .replyQueued, behind := none })).queueReply
        (x.reply i status)

/-! ## Served records (R73, R78) -/

/-- Prunes the served record of `p` with the low-water (R73). -/
def State.prune (s : State) (p : Station) (low : Byte) : State :=
  s.modPeer p fun q => { q with served := q.served.filter fun x => !seqBefore x.seq low }

/-- A served record takes a pair, the oldest leaving first when it holds 4 (R78). -/
def recordPair (served : List ServedPair) (x : ServedPair) : List ServedPair :=
  (if Config.servedPairs ≤ served.length then served.drop 1 else served) ++ [x]

/-- Records the outcome of a WRITE, unless the slot is stale (R78, R79). -/
def State.recordServed (s : State) (x : Slot) (status : ReplyStatus) : State :=
  if x.kind = .write && !x.stale then
    s.modPeer x.requester fun q => { q with served := recordPair q.served { seq := x.seq, status } }
  else s

/-- The recorded status of a sequence. -/
def servedStatus (served : List ServedPair) (seq : Byte) : Option ReplyStatus :=
  (served.find? fun x => x.seq = seq).map (·.status)

/-! ## Arrival checks (R74 to R77) -/

/-- The rights of a window permit a kind (R75). -/
def Rights.permits : Rights → ReqKind → Bool
  | .read, .read | .write, .write | .readWrite, _ => true
  | .read, .write | .write, .read => false

/-- Check 2 refuses a request (R75). -/
def Window.refuses (w : Window) (p : Station) (kind : ReqKind) : Bool :=
  !w.enabled || !inMask w.mask p || !w.rights.permits kind

/-- Slot `y` is an earlier copy of the WRITE in `x`, still to be performed (R74, R79). -/
def Slot.isEarlierCopy (x y : Slot) : Bool :=
  y.requester = x.requester && y.kind = .write && y.seq = x.seq && y.echo = x.echo && !y.stale
    && (y.state = .waitingLocal || y.state = .accessing)

/-- The slot that performs an earlier copy of the WRITE in slot `i` (R74). -/
def State.earlierCopy (s : State) (i : SlotNo) (x : Slot) : Option SlotNo :=
  allSlots.find? fun j => j ≠ i && match s.slot j with
    | some y => x.isEarlierCopy y
    | none => false

/-- The inbound access of a slot (R77). -/
def Slot.access (x : Slot) (i : SlotNo) (base : Nat) : Access :=
  match x.kind with
  | .write =>
      { requester := .inboundWrite i, addr := base + x.offset, length := x.length, bytes := x.buffer.take x.length }
  | .read => { requester := .inboundRead i, addr := base + x.offset, length := x.length, bytes := [] }

/-- A refusal at check 2 or 3: recorded for a WRITE, then answered (R75, R76). -/
def State.refuseSlot (s : State) (i : SlotNo) (x : Slot) (status : ReplyStatus) : State :=
  (s.recordServed x status).replySlot i status

/-- Checks 2 to 4 (R75 to R77). -/
def State.checkWindow (s : State) (i : SlotNo) (x : Slot) : State :=
  let w := s.window x.window
  if w.refuses x.requester x.kind then s.refuseSlot i x .refusedAccess
  else if w.length < x.offset + x.length then s.refuseSlot i x .refusedRange
  else (s.setSlot i (some { x with state := .waitingLocal })).queueInbound (x.access i w.base)

/-- Check 1 for a WRITE, then the others (R74). -/
def State.checkArrival (s : State) (i : SlotNo) (x : Slot) : State :=
  match x.kind with
  | .read => s.checkWindow i x
  | .write =>
      match servedStatus (s.peer x.requester).served x.seq with
      | some status => s.replySlot i status
      | none =>
          match s.earlierCopy i x with
          | some j => s.setSlot i (some { x with behind := some j })
          | none => s.checkWindow i x

/-! ## Admission (R65, R71, R72) -/

/-- The lowest-numbered FREE slot (R71). -/
def State.freeSlot (s : State) : Option SlotNo := allSlots.find? fun i => (s.slot i).isNone

/-- The slot a request fills (R72). -/
def Request.slot (r : Request) : Slot :=
  { state := .checked, requester := r.source, kind := r.kind, tag := r.tag, seq := r.seq, echo := r.inc
    window := r.window, offset := r.offset, length := r.length, buffer := r.payload, status := none
    stale := false, behind := none }

/-- The request takes slot `i`, spending a credit of its sender, and is checked (R65, R72, R73). -/
def State.takeSlot (s : State) (r : Request) (i : SlotNo) : State :=
  let s := (s.setGrant r.source (s.grantCount r.source - 1)).setSlot i (some r.slot)
  let s := { s with inbound := { s.inbound with arrivals := s.inbound.arrivals ++ [i] } }
  (s.prune r.source r.low).checkArrival i r.slot

/-- A WRITE or READ is delivered to the credit unit (R65). -/
def State.takeRequest (s : State) (r : Request) : State :=
  if s.inState .online && 1 ≤ s.grantCount r.source then
    match s.freeSlot with
    | some i => s.takeSlot r i
    | none => s
  else s.refuse r

/-! ## End of an inbound access (R81, R86) -/

/-- The watch notice of a window after a WRITE performed DONE (R86). -/
def Window.noticed (w : Window) (p : Station) (offset : Nat) : Window :=
  if w.watch then
    { w with notice := some (match w.notice with
        | none => { firstPeer := p, firstOffset := offset, lastPeer := p, count := 1 }
        | some n => { n with lastPeer := p, count := min 65535 (n.count + 1) }) }
  else w

/-- Updates the watch notice of a slot's window (R81 step 2, R86). -/
def State.notice (s : State) (x : Slot) (status : ReplyStatus) : State :=
  if x.kind = .write && status = .done then
    s.setWindowAt x.window ((s.window x.window).noticed x.requester x.offset)
  else s

/-- The slots waiting in CHECKED behind slot `i`, in order of admission (R74, R81). -/
def State.waitersBehind (s : State) (i : SlotNo) : List SlotNo :=
  s.inbound.arrivals.filter fun j => match s.slot j with
    | some y => y.state = .checked && y.behind = some i
    | none => false

/-- An inbound access from `first` ends and is reported to its slot `i` (R81). A READ's slot holds the bytes that reached
its buffer, and uses none of them after an error (R159). -/
def State.endSlotAccess (s : State) (i : SlotNo) (first : Nat) (e : AccessEnd) : State :=
  match s.slot i with
  | none => s
  | some x =>
      let status : ReplyStatus := if endedOk e then .done else .localError
      let x := match x.kind with
        | .write => x
        | .read => { x with buffer := readBuffer first x.length e }
      let s := s.setSlot i (some x)
      let s := (s.recordServed x status).notice x status
      let waiters := s.waitersBehind i
      waiters.foldl (fun s j => s.replySlot j status) (s.replySlot i status)

/-- A slot's reply has been sent: the slot becomes FREE (R83). -/
def State.freeSlotAt (s : State) (i : SlotNo) : State :=
  let s := s.setSlot i none
  { s with inbound := { s.inbound with arrivals := without s.inbound.arrivals i } }

end Sys2Proof.Machine
end

