-- ==== Sys2Proof/Machine/LocalBus.lean ====
section
/-! DEFINITION. Meanings of the ends of local accesses (R162 and the rules it names). An end that is not that of the
access in progress is no event and changes nothing (log 2). -/
namespace Sys2Proof.Machine

/-- The access in progress ends: its bytes have gone to local memory, its outcome is reported unless it is to be
dropped, the port becomes idle, and the part goes on (R159, R162, R163). -/
def State.finishAccess (s : State) (cur : CurrentAccess) (e : AccessEnd) (report : State → State) : State :=
  let s := s.applyWrite cur.access e
  let s := if cur.dropped then s else report s
  { s with port := { s.port with current := none } }.settle

/-! ## Descriptor fetch (R109, R110) -/

/-- A channel takes a fetched copy that is valid: RUNNING for a PUT or GET, WAITING for a WAIT (R109, R117). -/
def State.beginDescriptor (s : State) (c : Chan) (d : List Byte) : State :=
  if descKind d ≤ 1 then (s.modChan c fun ch => { ch with state := .running }).retestReady
  else
    (s.modChan c fun ch => { ch with
      state := .waiting
      waitTimer := if descLimit d = 0 then .stopped else .running (descLimit d) }).setWait c
        (some { mask := descMask d, target := descTarget d })

/-- The fetch of channel `c` has ended (R109, R110); `data` is absent after an error, when the channel uses none of the
bytes that reached it and its copy stays absent (R109, R159). -/
def State.endFetch (s : State) (c : Chan) (data : Option (List Byte)) : State :=
  let ch := s.chan c
  if ch.state ≠ .fetching then s
  else
    match data with
    | none =>
        match ch.flag with
        | .aborting => (s.setChan c (ch.channelFault .localBus none)).complete c .aborted
        | .none | .stopping => s.failChannel c .localBus none
    | some d =>
        let s := s.setChan c { ch with copy := some d }
        match ch.flag with
        | .aborting => s.complete c .aborted
        | .stopping => s.complete c .faulted
        | .none =>
            if descValid s.own s.stationCount d then s.beginDescriptor c d
            else s.failChannel c .badDescriptor none

/-- DESCRIPTOR_FETCH_END (R109, R110). -/
def execDescriptorFetchEnd (outcome : AccessEnd) (s : State) : Result :=
  .next (match s.port.current with
    | none => s
    | some cur =>
        match cur.access.requester with
        | .fetch c => s.finishAccess cur outcome fun s => s.endFetch c (readData 32 outcome)
        | .load _ | .store _ | .record _ | .inboundWrite _ | .inboundRead _ => s)

/-! ## Load and store (R131, R141) -/

/-- The load of entry `t` has ended (R131). After an error the bytes that reached the buffer (R159) go with the entry,
which retires in the same event. -/
def State.endLoad (s : State) (t : Tag) (e : Entry) (outcome : AccessEnd) : State :=
  match e.retireReason, readData e.length outcome with
  | some why, _ => s.retire t (e.failedOrAborted why)
  | none, none => s.retire t (.failed .localBus)
  | none, some data =>
      if e.aborting then s.retire t .aborted
      else (s.setEntry t (some { e with buffer := data })).joinWaitList t e.peer

/-- LOAD_END (R131). -/
def execLoadEnd (outcome : AccessEnd) (s : State) : Result :=
  .next (match s.port.current with
    | none => s
    | some cur =>
        match cur.access.requester with
        | .load t => s.finishAccess cur outcome fun s =>
            match s.entry t with
            | some e => if e.state = .loading then s.endLoad t e outcome else s
            | none => s
        | .fetch _ | .store _ | .record _ | .inboundWrite _ | .inboundRead _ => s)

/-- STORE_END (R141). -/
def execStoreEnd (outcome : AccessEnd) (s : State) : Result :=
  .next (match s.port.current with
    | none => s
    | some cur =>
        match cur.access.requester with
        | .store t => s.finishAccess cur outcome fun s =>
            match s.entry t with
            | some e =>
                if e.state = .storing then s.retire t (if endedOk outcome then .done else .failed .localBus) else s
            | none => s
        | .fetch _ | .load _ | .record _ | .inboundWrite _ | .inboundRead _ => s)

/-! ## Inbound access (R81) -/

/-- INBOUND_ACCESS_END (R81). -/
def execInboundAccessEnd (outcome : AccessEnd) (s : State) : Result :=
  .next (match s.port.current with
    | none => s
    | some cur =>
        match cur.access.requester with
        | .inboundWrite i | .inboundRead i =>
            s.finishAccess cur outcome fun s => s.endSlotAccess i cur.access.addr outcome
        | .fetch _ | .load _ | .store _ | .record _ => s)

/-! ## Record write (R167, R168) -/

/-- The record write of channel `c` has ended: the channel takes its step, and then the next record write is tested for
(R167, R168). -/
def State.endRecord (s : State) (c : Chan) (ok : Bool) : State :=
  if s.ring.inProgress = some c then
    if ok then
      ({ s with ring := { s.ring with inProgress := none, producer := s.ring.producer + 1#16 } }.leaveCompleting
        c).testRecordWrite
    else ({ s with ring := { s.ring with inProgress := none } }.loseRecord c).testRecordWrite
  else s

/-- RECORD_WRITE_END (R167, R168). -/
def execRecordWriteEnd (outcome : AccessEnd) (s : State) : Result :=
  .next (match s.port.current with
    | none => s
    | some cur =>
        match cur.access.requester with
        | .record c => s.finishAccess cur outcome fun s => s.endRecord c (endedOk outcome)
        | .fetch _ | .load _ | .store _ | .inboundWrite _ | .inboundRead _ => s)

end Sys2Proof.Machine
end

