-- ==== Sys2Proof/Machine/Medium.lean ====
section
/-! DEFINITION. Medium access and transmission: who owns a bus slot, what may be sent in it, the message as filled at
its start, its end and its abandonment (sections 2.4 to 2.6). -/
namespace Sys2Proof.Machine

/-! ## Bus slots (R26, R27) -/

/-- The position of station `own` after a message from `last` in a group of `n` (R26). -/
def slotPosition (own last n : Nat) : Nat := (((own : Int) - (last : Int) - 1) % (n : Int)).toNat

/-- Station `own` owns bus slot `k` (R26). -/
def ownsSlot (own last n k : Nat) : Bool :=
  if k < n then slotPosition own last n = k
  else if k < 2 * n then slotPosition own last n = k - n
  else slotPosition own last n = (k - 2 * n) % n

/-- The cold guard in slot times (R27). -/
def State.coldGuard (s : State) : Nat := 2 * s.stationCount + 2 + s.own

/-- The station may start to transmit at all: its transmitter is on, its transmit buffer is empty and no activity is in
progress (R26, R27, R29). -/
def State.mayTransmit (s : State) : Bool := s.transmitterOn && s.bus.transmit.isNone && s.bus.line = .idle

/-! ## The message as filled at its start (R20) -/

/-- A message of the own station with its header filled (R20). -/
def State.withHeader (s : State) (dest : Byte) (body : Body) : Message :=
  { dest, source := s.latch.bytes.stationNumber, inc := s.station.incarnation.getD 0#8, body }

/-- A station number as a byte. -/
def stationByte (p : Station) : Byte := BitVec.ofNat 8 p.val

/-- A waiting reply as a message. -/
def State.fillReply (s : State) (r : QueuedReply) : Message :=
  s.withHeader (stationByte r.dest) (match r.kind with
    | .write => .ack (BitVec.ofNat 8 r.tag.val) r.seq r.echo (BitVec.ofNat 8 r.status.code)
    | .read => .data (BitVec.ofNat 8 r.tag.val) r.seq r.echo (BitVec.ofNat 8 r.status.code) r.payload)

/-- A control message, with the own mark as it stands (R20). -/
def State.fillControl (s : State) : Control → Message
  | .join => s.withHeader Config.toAll (.join s.marks.own)
  | .presence => s.withHeader Config.toAll (.presence s.marks.own)
  | .leave => s.withHeader Config.toAll (.leave s.marks.own)
  | .ask p wanted => s.withHeader (stationByte p) (.ask (BitVec.ofNat 8 wanted))
  | .grant p credits echo => s.withHeader (stationByte p) (.grant (BitVec.ofNat 8 credits) echo)

/-- The request of an entry, its fields and low-water taken now (R20, R134, R135). -/
def State.fillRequest (s : State) (t : Tag) (e : Entry) : Message :=
  let tag := BitVec.ofNat 8 t.val
  let seq := e.seq.getD 0#8
  let window := BitVec.ofNat 8 e.window
  let offset := BitVec.ofNat 24 e.offset
  s.withHeader (stationByte e.peer) (match e.kind with
    | .write => .write tag seq (s.lowWater e.peer) window offset e.buffer
    | .read => .read tag seq (s.lowWater e.peer) window offset (BitVec.ofNat 8 e.length))

/-! ## Start of a transmission (R29) -/

/-- The transmit buffer takes a message and the transmission starts. -/
def State.transmitNow (s : State) (item : Outgoing) (m : Message) : State :=
  { s with bus := { s.bus with
      line := .activity, transmit := some { item, message := m, withdrawn := false } } }

/-- The head of the request queue goes out (R135). -/
def State.sendRequest (s : State) : State :=
  match s.bus.requestQueue with
  | [] => s
  | t :: rest =>
      match s.entry t with
      | none => s
      | some e =>
          (({ s with bus := { s.bus with requestQueue := rest } }.setEntry t
            (some { e with inTransmission := true })).transmitNow (.request t) (s.fillRequest t e))

/-- The bus interface takes the head of one queue: the reply queue; else, unless only replies may go, the control queue;
else the request queue (R29). -/
def State.send (s : State) (repliesOnly : Bool) : State :=
  match s.bus.replyQueue with
  | r :: rest =>
      { s with bus := { s.bus with replyQueue := rest } }.transmitNow (.reply r) (s.fillReply r)
  | [] =>
      if repliesOnly then s
      else
        match s.bus.controlQueue with
        | c :: rest =>
            { s with bus := { s.bus with controlQueue := rest } }.transmitNow (.control c) (s.fillControl c)
        | [] => s.sendRequest

/-- Slot times counted since the last activity end. -/
def State.countTo (s : State) (n : Nat) : State := { s with bus := { s.bus with slotClock := n } }

/-! ## End of a transmission (R34) -/

/-- The entry of a sent request enters SENT (R135). -/
def Entry.sentNow (e : Entry) (timeout : Nat) : Entry :=
  { e with state := .sent, inTransmission := false, attempts := e.attempts + 1, replyTimer := .running timeout }

/-- A transmission's end is reported to the message's owner (R34). -/
def State.reportSent (s : State) : Outgoing → State
  | .reply r => match r.owner with
      | .slot i => s.freeSlotAt i
      | .refusal => { s with credit := { s.credit with refusals := s.credit.refusals - 1 } }
  | .control .leave => s.endSession
  | .control .join | .control .presence | .control (.ask _ _) | .control (.grant _ _ _) => s
  | .request t => s.modEntry t fun e => e.sentNow s.replyTimeout

/-- A transmission ends without a mismatch (R34, R33). -/
def State.endTransmission (s : State) (x : Transmission) : State :=
  let s := { s with bus := { s.bus with
    transmit := none, clashCount := 0, slotRef := .warm s.ownStation, line := .idle, slotClock := 0 } }
  if x.withdrawn then s else s.reportSent x.item

/-! ## Clash (R35, R33, R143) -/

/-- A message abandoned on a clash goes back to the head of its queue; the request of an aborted entry is withdrawn at
once instead (R33, R35, R143). -/
def State.returnToQueue (s : State) : Outgoing → State
  | .reply r => { s with bus := { s.bus with replyQueue := r :: s.bus.replyQueue } }
  | .control c => { s with bus := { s.bus with controlQueue := returnControl s.bus.controlQueue c } }
  | .request t =>
      match s.entry t with
      | none => s
      | some e =>
          let s := s.setEntry t (some { e with inTransmission := false })
          if e.aborting then (s.returnCredit e.peer).retire t .aborted
          else { s with bus := { s.bus with requestQueue := t :: s.bus.requestQueue } }

/-- A clash (R35): the rest of the activity is not received, the slot reference is cold; at the third in a row the
station is isolated (R13). -/
def State.clash (s : State) (x : Transmission) : State :=
  let count := s.bus.clashCount + 1
  let s := { s with bus := { s.bus with
    transmit := none, clashCount := count, slotRef := .cold, line := .abandoned, slotClock := 0 } }
  if Config.clashLimit ≤ count then s.isolate else if x.withdrawn then s else s.returnToQueue x.item

end Sys2Proof.Machine
end

