-- ==== Sys2Proof/Machine/Peers.lean ====
section
/-! DEFINITION. The peer table's shared operations: peer cleanup, the update by a heard message, notices to the mark
unit (chapter 3, R45 to R48, R79, R145, R153). -/
namespace Sys2Proof.Machine

/-! ## Peer cleanup (R45, R46, R48, R79, R145) -/

/-- Entry `e` still has to be settled by a cleanup for `p`: STORING runs on, and LOADING keeps its first reason. -/
def Entry.unsettledBy (p : Station) (e : Entry) : Bool :=
  e.peer = p && match e.state with
    | .storing => false
    | .loading => e.retireReason.isNone
    | .waitingCredit | .queued | .sent => true

/-- A cleanup for `e`'s peer with reason `why` settles entry `t` (R45, R145). -/
def State.cleanupEntry (s : State) (why : FaultCode) (t : Tag) (e : Entry) : State :=
  match e.state with
  | .waitingCredit => (s.leaveWaitList t e.peer).retire t (e.failedOrAborted why)
  | .queued =>
      (if e.inTransmission then s.withdrawSending t else s.withdrawRequest t).retire t (e.failedOrAborted why)
  | .sent => s.retire t (e.failedOrAborted why)
  | .loading => s.setEntry t (some { e with retireReason := some why })
  | .storing => s

/-- The lowest tag with an entry still to be settled by a cleanup for `p` (R147: in the order of their tags). -/
def State.nextUnsettled (s : State) (p : Station) : Option Tag :=
  allTags.find? fun t => match s.entry t with
    | some e => e.unsettledBy p
    | none => false

/-- The cleanup's action on the transaction table: each retirement completes its steps, allocation included, before the
next begins, and an entry given out meanwhile is settled in the same way (R45, R147). -/
def State.cleanupEntries (p : Station) (why : FaultCode) : Nat → State → State
  | 0, s => s
  | fuel + 1, s =>
      match s.nextUnsettled p with
      | none => s
      | some t =>
          match s.entry t with
          | none => s
          | some e => State.cleanupEntries p why fuel (s.cleanupEntry why t e).settle

/-- The cleanup's action on the credit state (R46). -/
def State.cleanupCredit (s : State) (p : Station) : State :=
  let s := s.modPeer p fun q => { q with held := 0, asked := false, askTimer := .stopped }
  let s := s.withdrawControl fun c => c.isAskTo p || c.isGrantTo p
  let s := s.setGrant p 0
  { s with credit := { s.credit with askList := s.credit.askList.filter fun a => a.peer ≠ p } }

/-- Every occupied slot of `p` gets stale yes (R79). -/
def State.markStale (s : State) (p : Station) : State :=
  allSlots.foldl (fun s i => s.modSlot i fun x => if x.requester = p then { x with stale := true } else x) s

/-- The peer cleanup for `p` with reason `why`: entries, then credit state, then the served record (R45, R46, R48),
and the stale marks (R79). 64 passes are more than a cleanup can need (log 18). -/
def State.cleanup (s : State) (p : Station) (why : FaultCode) : State :=
  let s := State.cleanupEntries p why 64 s
  let s := s.cleanupCredit p
  let s := s.modPeer p fun q => { q with served := [] }
  s.markStale p

/-! ## Notices to the mark unit (R153, R155 case 1, R156) -/

/-- A notice that fails every member whose mask names `p`: RESTARTED or ENTERED-ABSENT (R155 case 1). Notices of the
other kinds are the evaluation that `settle` makes. -/
def State.failWaitsOn (s : State) (p : Station) : State :=
  allChans.foldl (fun s c => match s.waitOf c with
    | some m => if inMask m.mask p then s.waitLost c p else s
    | none => s) s

/-! ## The update by a heard message (R38, R39, R40) -/

/-- The entry of a peer heard PRESENT, with the message's incarnation and mark (R38). -/
def State.hearPresent (s : State) (p : Station) (inc : Byte) (mark : Option Word) : State :=
  s.modPeer p fun q =>
    { q with state := .present, incarnation := some inc, mark := mark, silence := .running s.silenceTimeout }

/-- A message other than LEAVE heard from `p`: presence, incarnation, mark and cleanup. `mark` is that of a JOIN or
PRESENCE; `isJoin` tells a JOIN (R38, R39). -/
def State.presenceUpdate (s : State) (p : Station) (inc : Byte) (mark : Option Word) (isJoin : Bool) : State :=
  match (s.peer p).state with
  | .unknown | .absent _ => (s.hearPresent p inc mark).addChange p
  | .present =>
      if (s.peer p).incarnation = some inc && !isJoin then
        s.modPeer p fun q =>
          { q with silence := .running s.silenceTimeout, mark := if mark.isSome then mark else q.mark }
      else
        (((s.cleanup p .peerRestarted).hearPresent p inc mark).addChange p).failWaitsOn p

/-- A LEAVE heard from `p` (R40). The notice is ENTERED-ABSENT, but for an ABSENT peer whose LEAVE repeats its
incarnation and mark, which is no change (R42, R153). -/
def State.leaveUpdate (s : State) (p : Station) (inc : Byte) (mark : Word) : State :=
  let before := s.peer p
  let repeated := (match before.state with | .absent _ => true | .unknown | .present => false)
    && before.incarnation = some inc && before.mark = some mark
  let s := (s.cleanup p .peerLeft).modPeer p fun q =>
    { q with state := .absent .left, incarnation := some inc, mark := some mark, silence := .stopped }
  let s := s.addChange p
  if repeated then s else s.failWaitsOn p

/-- The silence timer of `p` expires (R41). -/
def State.silenceUpdate (s : State) (p : Station) : State :=
  let s := (s.cleanup p .peerLost).modPeer p fun q => { q with state := .absent .silent, silence := .stopped }
  (s.addChange p).failWaitsOn p

end Sys2Proof.Machine
end

