-- ==== Sys2Proof/Machine/Receive.lean ====
section
/-! DEFINITION. What is heard: the steps of R22, the delivery of R23, and the meanings of the rows of the line and of
messages heard. -/
namespace Sys2Proof.Machine

/-! ## The steps of R22 -/

/-- The line after an activity end, with the slot reference it leaves (R25). -/
def State.activityEnd (s : State) (r : SlotRef) : State :=
  { s with bus := { s.bus with slotRef := r, line := .idle, slotClock := 0 } }

/-- A message with a good check is heard from `source` (R22): step 1, the own number isolates; step 2, N or higher leaves
the station cold; step 3, a malformed message only makes it warm; else the message is taken by `take`. A station that
does not listen hears nothing (section 2.3). The message of an activity in which the station abandoned its own is not
heard: its end leaves the station cold (R24, R35, R36). -/
def State.hearFrom (s : State) (source : Byte) (ok : Bool) (take : Station → State → State) : State :=
  if !s.listening then s
  else if s.deaf then s.activityEnd .cold
  else if source.toNat = s.own then s.isolate
  else
    match stationBelow s.stationCount source with
    | none => s.activityEnd .cold
    | some p => if ok then (take p (s.activityEnd (.warm p))).settle else s.activityEnd (.warm p)

/-! ## Delivery (R23) -/

/-- An asker joins the ask list; one already there keeps its position with the new wanted count (R61). -/
def addAsker (l : List Asker) (p : Station) (wanted : Nat) : List Asker :=
  if l.any fun a => a.peer = p then l.map fun a => if a.peer = p then { a with wanted := wanted } else a
  else l ++ [{ peer := p, wanted }]

/-- `p` joins the ask list of the credit unit (R61). -/
def State.joinAskList (s : State) (p : Station) (wanted : Nat) : State :=
  { s with credit := { s.credit with askList := addAsker s.credit.askList p wanted } }

/-- An ASK reaches the credit unit (R62). Granting follows as a step of the part itself. -/
def State.takeAsk (s : State) (p : Station) (wanted : Nat) : State :=
  if s.inState .joining then s.joinAskList p wanted
  else if s.inState .online then
    if s.bus.controlQueue.any (Control.isGrantTo p) then s else (s.setGrant p 0).joinAskList p wanted
  else s

/-- A GRANT reaches the peer entry of `p` (R58). Handing and asking follow as steps of the part itself. -/
def State.takeGrant (s : State) (p : Station) (credits : Nat) (echo : Byte) : State :=
  if s.station.incarnation = some echo then
    (s.modPeer p fun q =>
      { q with held := min s.creditCap (q.held + credits), asked := false, askTimer := .stopped }).withdrawControl
        (Control.isAskTo p)
  else s

/-! ## Meanings: the line -/

/-- ACTIVITY_BEGIN: counting stops, a guard wait ends (R26, R27). A station that does not listen observes nothing, and no
activity begins within the rest of the one in which it abandoned its message (R18, R35). -/
def execActivityBegin (s : State) : Result :=
  .next (if s.listening && !s.deaf then { s with bus := { s.bus with line := .activity, slotClock := 0 } } else s)

/-- BAD_CHECK_ACTIVITY: cold, measured from this activity end (R24). -/
def execBadCheckActivity (s : State) : Result := .next (if s.listening then s.activityEnd .cold else s)

/-- MALFORMED_MESSAGE (R22 step 3, after steps 1 and 2). -/
def execMalformedMessage (source : Byte) (s : State) : Result := .next (s.hearFrom source false fun _ s => s)

/-- OWN_NUMBER_HEARD (R13, R22 step 1); in an activity abandoned on a clash it is not heard (R36). -/
def execOwnNumberHeard (s : State) : Result :=
  .next (if s.listening then (if s.deaf then s.activityEnd .cold else s.isolate) else s)

/-- SOURCE_N_OR_HIGHER_HEARD (R22 step 2): cold. A source below N is not this event and changes nothing (log 20). -/
def execSourceNOrHigherHeard (source : Byte) (s : State) : Result :=
  .next (if s.listening && s.stationCount ≤ source.toNat && source.toNat ≠ s.own then s.activityEnd .cold else s)

/-- OVERHEARD_MESSAGE (R22 step 4, R38): presence only. A message addressed to the own station is not this event and
changes nothing (log 20). -/
def execOverheardMessage (dest source kind inc : Byte) (s : State) : Result :=
  .next (if dest.toNat = s.own then s
  else s.hearFrom source (Instr.wellFormed (.overheardMessage dest source kind inc))
    fun p s => s.presenceUpdate p inc none false)

/-! ## Meanings: announcements -/

/-- JOIN_HEARD (R39, R44). -/
def execJoinHeard (source inc : Byte) (mark : Word) (s : State) : Result :=
  .next (s.hearFrom source true fun p s => (s.presenceUpdate p inc (some mark) true).queuePresence)

/-- PRESENCE_HEARD (R38). -/
def execPresenceHeard (source inc : Byte) (mark : Word) (s : State) : Result :=
  .next (s.hearFrom source true fun p s => s.presenceUpdate p inc (some mark) false)

/-- LEAVE_HEARD (R40). -/
def execLeaveHeard (source inc : Byte) (mark : Word) (s : State) : Result :=
  .next (s.hearFrom source true fun p s => s.leaveUpdate p inc mark)

/-! ## Meanings: credits -/

/-- ASK_HEARD (R38, R62). -/
def execAskHeard (source inc wanted : Byte) (s : State) : Result :=
  .next (s.hearFrom source (wfCredits wanted) fun p s =>
    (s.presenceUpdate p inc none false).takeAsk p wanted.toNat)

/-- GRANT_HEARD (R38, R58). -/
def execGrantHeard (source inc credits echo : Byte) (s : State) : Result :=
  .next (s.hearFrom source (wfCredits credits) fun p s =>
    (s.presenceUpdate p inc none false).takeGrant p credits.toNat echo)

/-! ## Meanings: requests and replies -/

/-- WRITE_HEARD (R38, R65). -/
def execWriteHeard (source inc tag seq low window : Byte) (offset : BitVec 24) (payload : List Byte) (s : State) :
    Result :=
  .next (s.hearFrom source (wfRequest tag window offset payload.length) fun p s =>
    (s.presenceUpdate p inc none false).takeRequest
      { source := p, inc, kind := .write, tag := tagOfByte tag, seq, low, window := windowOfByte window
        offset := offset.toNat, length := payload.length, payload })

/-- READ_HEARD (R38, R65). -/
def execReadHeard (source inc tag seq low window : Byte) (offset : BitVec 24) (length : Byte) (s : State) : Result :=
  .next (s.hearFrom source (wfRequest tag window offset length.toNat) fun p s =>
    (s.presenceUpdate p inc none false).takeRequest
      { source := p, inc, kind := .read, tag := tagOfByte tag, seq, low, window := windowOfByte window
        offset := offset.toNat, length := length.toNat, payload := [] })

/-- A reply is delivered (R23, R137). -/
def State.deliverReply (s : State) (p : Station) (inc : Byte) (kind : ReqKind) (tag seq echo status : Byte)
    (payload : List Byte) : State :=
  match statusOfByte status with
  | none => s.presenceUpdate p inc none false
  | some st =>
      (s.presenceUpdate p inc none false).takeReply
        { source := p, kind, tag := tagOfByte tag, seq, echo, status := st, payload }

/-- ACK_HEARD (R38, R137 to R139). -/
def execAckHeard (source inc tag seq echo status : Byte) (s : State) : Result :=
  .next (s.hearFrom source (wfReply tag status) fun p s => s.deliverReply p inc .write tag seq echo status [])

/-- DATA_HEARD (R38, R137 to R141). -/
def execDataHeard (source inc tag seq echo status : Byte) (payload : List Byte) (s : State) : Result :=
  .next (s.hearFrom source (wfReply tag status && wfDataLength status payload.length) fun p s =>
    s.deliverReply p inc .read tag seq echo status payload)

end Sys2Proof.Machine
end

