-- ==== Sys2Proof/Machine/ResetEvents.lean ====
section
/-! DEFINITION. Meanings of the reset and start events (sections 1.1 and 1.2). -/
namespace Sys2Proof.Machine

/-- POWER_ON: a start reset with cause POWER-ON (R4, R5). -/
def execPowerOn (cut : List Bool) (s : State) : Result :=
  let s := s.beginStartReset .powerOn cut
  .next { s with latch := { s.latch with cause := .powerOn } }

/-- RESET_PIN_ASSERT: a start reset by the pin (R5). The cause PIN is set when the pin is released (R4). A reset already
in progress keeps its kind (log 6). -/
def execResetPinAssert (cut : List Bool) (s : State) : Result :=
  let kind := match s.phase with
    | .inReset k => k
    | .reading | .running => .pin
  .next (s.beginStartReset kind cut)

/-- RESET_END: the latch clears its bytes and check result and the read begins (R1, R5); a pin reset sets its cause (R4).
Without a start reset in progress it is no event. -/
def execResetEnd (s : State) : Result :=
  .next (match s.phase with
    | .inReset kind =>
        { s with
          phase := .reading
          latch := { bytes := .cleared, check := none
                     cause := match kind with | .pin => .pin | .powerOn => s.latch.cause } }
    | .reading | .running => s)

/-- CONFIGURATION_READ_END (R1, R2, R16). -/
def execConfigurationReadEnd (answers : List (Option Byte)) (s : State) : Result :=
  .next (if s.phase = .reading then s.finishConfigRead answers else s)

end Sys2Proof.Machine
end

