-- ==== Sys2Proof/Machine/Timers.lean ====
section
/-! DEFINITION. Meanings of the timer expiries. An expiry of a timer that does not run is no event and changes nothing
(log 2). -/
namespace Sys2Proof.Machine

/-- JOIN_LISTEN_TIMER_EXPIRY (R9, R43): the station enters ONLINE, grants to the askers gathered, and the presence timer
starts. -/
def execJoinListenTimerExpiry (s : State) : Result :=
  .next (if s.inState .joining && s.station.joinListen.isRunning then
    let s := s.enterStation .online
    { s with station := { s.station with
        joinListen := .stopped, presence := .running s.presenceInterval } }.settle
  else s)

/-- PRESENCE_TIMER_EXPIRY (R43). -/
def execPresenceTimerExpiry (s : State) : Result :=
  .next (if s.station.presence.isRunning then
    { s.queuePresence with station := { s.station with presence := .running s.presenceInterval } }
  else s)

/-- SILENCE_TIMER_EXPIRY (R41). -/
def execSilenceTimerExpiry (p : Station) (s : State) : Result :=
  .next (if (s.peer p).silence.isRunning then (s.silenceUpdate p).settle else s)

/-- ASK_TIMER_EXPIRY (R57). -/
def execAskTimerExpiry (p : Station) (s : State) : Result :=
  .next (if (s.peer p).askTimer.isRunning then
    if (s.peer p).asked && !(s.peer p).waitList.isEmpty then (s.ask p).settle
    else (s.modPeer p fun q => { q with asked := false, askTimer := .stopped }).settle
  else s)

/-- The reply timer of entry `t` has expired (R136, R144). -/
def State.expireReply (s : State) (t : Tag) (e : Entry) : State :=
  if e.aborting then s.retire t .aborted
  else if e.attempts < s.attemptLimit then s.joinWaitList t e.peer
  else s.retire t (.failed .timeout)

/-- REPLY_TIMER_EXPIRY (R136). -/
def execReplyTimerExpiry (t : Tag) (s : State) : Result :=
  .next (match s.entry t with
    | none => s
    | some e => if e.state = .sent && e.replyTimer.isRunning then (s.expireReply t e).settle else s)

/-- WAIT_TIMER_EXPIRY (R117). -/
def execWaitTimerExpiry (c : Chan) (s : State) : Result :=
  .next (if (s.chan c).state = .waiting && (s.chan c).waitTimer.isRunning then
    ((s.setWait c none).failChannel c .waitExpired none).settle
  else s)

end Sys2Proof.Machine
end

