-- ==== Sys2Proof/Machine/Transmit.lean ====
section
/-! DEFINITION. Meanings of the rows of transmission (sections 2.4 to 2.6). -/
namespace Sys2Proof.Machine

/-- BUS_SLOT_START (R26, R28, R29): bus slot `k` begins. A warm station that owns it sends the head of the queue the
window allows, if any; a slot already passed, and one the station does not own, is not this event (log 15). -/
def execBusSlotStart (k : Nat) (s : State) : Result :=
  .next (match s.bus.slotRef with
    | .cold => s
    | .warm last =>
        if s.mayTransmit && s.bus.slotClock < k + 1 && ownsSlot s.own last.val s.stationCount k then
          (s.countTo (k + 1)).send (k < s.stationCount)
        else s)

/-- COLD_GUARD_EXPIRY (R27, R29): `slotTimes` whole slot times, at least the cold guard, have passed since the end from
which the guard is measured, with the line idle. -/
def execColdGuardExpiry (slotTimes : Nat) (s : State) : Result :=
  .next (match s.bus.slotRef with
    | .warm _ => s
    | .cold =>
        if s.mayTransmit && s.bus.slotClock < slotTimes && s.coldGuard ≤ slotTimes then
          (s.countTo slotTimes).send false
        else s)

/-- TRANSMISSION_END (R34, R33). -/
def execTransmissionEnd (s : State) : Result :=
  .next (match s.bus.transmit with
    | none => s
    | some x => (s.endTransmission x).settle)

/-- TRANSMISSION_CLASH (R35, R33, R13, R143). -/
def execTransmissionClash (s : State) : Result :=
  .next (match s.bus.transmit with
    | none => s
    | some x => (s.clash x).settle)

end Sys2Proof.Machine
end

