-- ==== Sys2Proof/Machine/Views.lean ====
section
/-! DEFINITION. The READ commands and their views (section 11.4). -/
namespace Sys2Proof.Machine

/-! ## READ CHANNEL (R124, R176, R177) -/

/-- Page 0: state and counts. Pending status, record due and chaining cancelled show in COMPLETING only (R177). -/
def State.channelPage0 (s : State) (c : Chan) : Vector Word 8 :=
  let ch := s.chan c
  let completing := decide (ch.state = .completing)
  #v[packWord [(0, ch.state.code), (3, ch.flag.code), (5, bit (s.readyList.contains c)),
        (6, bit (s.ring.waitList.contains c)), (7, bit ch.waitTimer.isRunning),
        (8, bit (completing && ch.pending.isSome)),
        (9, if completing then (ch.pending.map PendingStatus.code).getD 0 else 0),
        (11, bit (completing && ch.recordDue)), (12, bit (completing && ch.chainCancelled)), (13, ch.owned)],
     lowWord ch.issued, highWord ch.issued, lowWord ch.done, highWord ch.done, lowWord ch.failed, highWord ch.failed,
     0#16]

/-- The number of pieces shown: 0 while the copy is absent (R177). -/
def Channel.shownPieces (ch : Channel) : Nat :=
  match ch.copy with
  | some d => descPieces d
  | none => 0

/-- Page 1: descriptor. The bytes of an absent copy read 0. -/
def State.channelPage1 (s : State) (c : Chan) : Vector Word 8 :=
  let ch := s.chan c
  let d := ch.copy.getD []
  let addr := ch.addr.getD 0
  #v[packWord [(0, bit ch.addr.isSome), (1, bit ch.copy.isSome), (8, descByte d 0)],
     lowWord addr,
     packWord [(0, addr / 65536), (8, descByte d 1)],
     wordOfBytes (d.getD 2 0#8) (d.getD 3 0#8),
     lowWord ch.shownPieces, highWord ch.shownPieces,
     wordOfBytes (d.getD 28 0#8) (d.getD 29 0#8),
     wordOfBytes (d.getD 30 0#8) (d.getD 31 0#8)]

/-- Page 2: fault record. -/
def State.channelPage2 (s : State) (c : Chan) : Vector Word 8 :=
  match (s.chan c).fault with
  | none => .replicate 8 0#16
  | some f =>
      #v[packWord [(0, 1), (1, bit f.piece.isSome), (2, bit f.peer.isSome), (8, f.code.code)],
         lowWord (f.piece.getD 0), highWord (f.piece.getD 0),
         packWord [(0, (f.peer.map fun p => p.val).getD 0), (8, f.further)],
         lowWord f.addr, packWord [(0, f.addr / 65536)], 0#16, 0#16]

/-- The view of one page, absent for a page above 2 (R175). -/
def State.channelView (s : State) (c : Chan) : Nat → Option (Vector Word 8)
  | 0 => some (s.channelPage0 c)
  | 1 => some (s.channelPage1 c)
  | 2 => some (s.channelPage2 c)
  | _ => none

/-- READ CHANNEL (R124, R175, R176): the channel number is tested before the page. -/
def execReadChannel (operand : Byte) (s : State) : Result :=
  .next (s.takeCommand Config.codeReadChannel operand fun s =>
    match chanOperand operand with
    | none => (s, .badParameter)
    | some c =>
        match s.channelView c (s.param 0).toNat with
        | none => (s, .badParameter)
        | some v => (s.setViews v, .accepted))

/-! ## READ PEER (R178) -/

/-- The wanted count of `p` in the ask list, absent when it does not stand there (R61). -/
def State.askedHere (s : State) (p : Station) : Option Nat :=
  (s.credit.askList.find? fun a => a.peer = p).map (·.wanted)

/-- The view of a peer. -/
def State.peerView (s : State) (p : Station) : Vector Word 8 :=
  let q := s.peer p
  let tagAt (i : Nat) : Nat := ((q.waitList[i]?).map fun t => t.val).getD 0
  let seqAt (i : Nat) : Byte := ((q.served[i]?).map (·.seq)).getD 0#8
  let statusAt (i : Nat) : Nat := ((q.served[i]?).map (·.status.code)).getD 0
  #v[packWord [(0, q.state.code), (2, bit (q.state = .absent .left)), (3, bit q.incarnation.isSome),
        (4, bit q.mark.isSome), (5, bit q.silence.isRunning), (6, bit q.asked), (7, bit q.askTimer.isRunning),
        (8, q.held), (11, bit (s.askedHere p).isSome), (12, s.grantCount p)],
     wordOfBytes (q.incarnation.getD 0#8) q.nextSeq,
     q.mark.getD 0#16,
     packWord [(0, q.waitList.length), (4, s.occupiedBy p), (8, (s.askedHere p).getD 0), (12, q.served.length)],
     packWord [(0, tagAt 0), (4, tagAt 1), (8, tagAt 2), (12, tagAt 3)],
     wordOfBytes (seqAt 0) (seqAt 1),
     wordOfBytes (seqAt 2) (seqAt 3),
     packWord [(0, statusAt 0), (3, statusAt 1), (6, statusAt 2), (9, statusAt 3)]]

/-- READ PEER (R178). -/
def execReadPeer (operand : Byte) (s : State) : Result :=
  .next (s.takeCommand Config.codeReadPeer operand fun s =>
    match stationOperand operand with
    | none => (s, .badParameter)
    | some p => (s.setViews (s.peerView p), .accepted))

/-! ## READ WINDOW and READ WATCH (R70, R87, R179) -/

/-- The view of a window. -/
def Window.view (w : Window) : Vector Word 8 :=
  #v[packWord [(0, bit w.enabled), (1, bit w.watch), (2, w.rights.code), (4, bit w.notice.isSome)],
     lowWord w.base, packWord [(0, w.base / 65536)], lowWord w.length, packWord [(0, w.length / 65536)], w.mask,
     0#16, 0#16]

/-- READ WINDOW (R70). -/
def execReadWindow (operand : Byte) (s : State) : Result :=
  .next (s.takeCommand Config.codeReadWindow operand fun s =>
    match windowOperand operand with
    | none => (s, .badParameter)
    | some w => (s.setViews (s.window w).view, .accepted))

/-- The view of a watch notice. -/
def noticeView : Option Notice → Vector Word 8
  | none => .replicate 8 0#16
  | some n =>
      #v[packWord [(0, 1), (8, n.firstPeer.val), (12, n.lastPeer.val)], lowWord n.firstOffset,
         packWord [(0, n.firstOffset / 65536)], BitVec.ofNat 16 n.count, 0#16, 0#16, 0#16, 0#16]

/-- READ WATCH (R87): the notice is returned and set to idle. -/
def execReadWatch (operand : Byte) (s : State) : Result :=
  .next (s.takeCommand Config.codeReadWatch operand fun s =>
    match windowOperand operand with
    | none => (s, .badParameter)
    | some w =>
        ((s.setViews (noticeView (s.window w).notice)).setWindowAt w { s.window w with notice := none }, .accepted))

/-! ## READ PEER CHANGES (R49, R179) -/

/-- READ PEER CHANGES: the set is returned as a mask and emptied. -/
def execReadPeerChanges (operand : Byte) (s : State) : Result :=
  .next (s.takeCommand Config.codeReadPeerChanges operand fun s =>
    ({ s.setViews #v[s.changes, 0#16, 0#16, 0#16, 0#16, 0#16, 0#16, 0#16] with changes := 0#16 }, .accepted))

end Sys2Proof.Machine
end

