-- ==== Sys2Proof/Machine/Dispatch.lean ====
section
/-! DEFINITION. One arm for each command. -/
namespace Sys2Proof.Machine

/-- The effect of a command on everything but the queue. -/
def exec (i : Instr) (s : State) : Host.Outcome State Fault Refusal :=
  match i with
  | .powerOn cut => Sys2Proof.Machine.execPowerOn cut s
  | .resetPinAssert cut => Sys2Proof.Machine.execResetPinAssert cut s
  | .resetEnd => Sys2Proof.Machine.execResetEnd s
  | .configurationReadEnd answers => Sys2Proof.Machine.execConfigurationReadEnd answers s
  | .join operand => Sys2Proof.Machine.execJoin operand s
  | .leave operand => Sys2Proof.Machine.execLeave operand s
  | .clearIsolation operand => Sys2Proof.Machine.execClearIsolation operand s
  | .softReset operand => Sys2Proof.Machine.execSoftReset operand s
  | .setWindow operand => Sys2Proof.Machine.execSetWindow operand s
  | .setRing operand => Sys2Proof.Machine.execSetRing operand s
  | .start operand => Sys2Proof.Machine.execStart operand s
  | .abort operand => Sys2Proof.Machine.execAbort operand s
  | .clear operand => Sys2Proof.Machine.execClear operand s
  | .advanceMark operand => Sys2Proof.Machine.execAdvanceMark operand s
  | .readChannel operand => Sys2Proof.Machine.execReadChannel operand s
  | .readPeer operand => Sys2Proof.Machine.execReadPeer operand s
  | .readWindow operand => Sys2Proof.Machine.execReadWindow operand s
  | .readWatch operand => Sys2Proof.Machine.execReadWatch operand s
  | .readPeerChanges operand => Sys2Proof.Machine.execReadPeerChanges operand s
  | .unknownCommand code operand => Sys2Proof.Machine.execUnknownCommand code operand s
  | .consumerWrite value => Sys2Proof.Machine.execConsumerWrite value s
  | .attnWrite value => Sys2Proof.Machine.execAttnWrite value s
  | .attnenWrite value => Sys2Proof.Machine.execAttnenWrite value s
  | .registerWrite addr value => Sys2Proof.Machine.execRegisterWrite addr value s
  | .activityBegin => Sys2Proof.Machine.execActivityBegin s
  | .badCheckActivity => Sys2Proof.Machine.execBadCheckActivity s
  | .malformedMessage source => Sys2Proof.Machine.execMalformedMessage source s
  | .joinHeard source inc mark => Sys2Proof.Machine.execJoinHeard source inc mark s
  | .presenceHeard source inc mark => Sys2Proof.Machine.execPresenceHeard source inc mark s
  | .leaveHeard source inc mark => Sys2Proof.Machine.execLeaveHeard source inc mark s
  | .askHeard source inc wanted => Sys2Proof.Machine.execAskHeard source inc wanted s
  | .grantHeard source inc credits echo => Sys2Proof.Machine.execGrantHeard source inc credits echo s
  | .writeHeard source inc tag seq low window offset payload => Sys2Proof.Machine.execWriteHeard source inc tag seq low window offset payload s
  | .readHeard source inc tag seq low window offset length => Sys2Proof.Machine.execReadHeard source inc tag seq low window offset length s
  | .ackHeard source inc tag seq echo status => Sys2Proof.Machine.execAckHeard source inc tag seq echo status s
  | .dataHeard source inc tag seq echo status payload => Sys2Proof.Machine.execDataHeard source inc tag seq echo status payload s
  | .granting => Sys2Proof.Machine.execGranting s
  | .busSlotStart k => Sys2Proof.Machine.execBusSlotStart k s
  | .coldGuardExpiry slotTimes => Sys2Proof.Machine.execColdGuardExpiry slotTimes s
  | .transmissionEnd => Sys2Proof.Machine.execTransmissionEnd s
  | .transmissionClash => Sys2Proof.Machine.execTransmissionClash s
  | .leaveQueued => Sys2Proof.Machine.execLeaveQueued s
  | .joinListenTimerExpiry => Sys2Proof.Machine.execJoinListenTimerExpiry s
  | .presenceTimerExpiry => Sys2Proof.Machine.execPresenceTimerExpiry s
  | .silenceTimerExpiry peer => Sys2Proof.Machine.execSilenceTimerExpiry peer s
  | .askTimerExpiry peer => Sys2Proof.Machine.execAskTimerExpiry peer s
  | .replyTimerExpiry tag => Sys2Proof.Machine.execReplyTimerExpiry tag s
  | .waitTimerExpiry chan => Sys2Proof.Machine.execWaitTimerExpiry chan s
  | .asking peer => Sys2Proof.Machine.execAsking peer s
  | .creditHanding peer => Sys2Proof.Machine.execCreditHanding peer s
  | .entryAllocation => Sys2Proof.Machine.execEntryAllocation s
  | .descriptorEnd chan => Sys2Proof.Machine.execDescriptorEnd chan s
  | .accessGrant => Sys2Proof.Machine.execAccessGrant s
  | .descriptorFetchEnd outcome => Sys2Proof.Machine.execDescriptorFetchEnd outcome s
  | .loadEnd outcome => Sys2Proof.Machine.execLoadEnd outcome s
  | .storeEnd outcome => Sys2Proof.Machine.execStoreEnd outcome s
  | .inboundAccessEnd outcome => Sys2Proof.Machine.execInboundAccessEnd outcome s
  | .recordWriteIssue => Sys2Proof.Machine.execRecordWriteIssue s
  | .recordWriteEnd outcome => Sys2Proof.Machine.execRecordWriteEnd outcome s
  | .ownNumberHeard => Sys2Proof.Machine.execOwnNumberHeard s
  | .sourceNOrHigherHeard source => Sys2Proof.Machine.execSourceNOrHigherHeard source s
  | .overheardMessage dest source kind inc => Sys2Proof.Machine.execOverheardMessage dest source kind inc s

end Sys2Proof.Machine
end

