-- ==== Sys2Proof/Machine/Registers.lean ====
section
/-! DEFINITION. What the host reads, and the framing of an SPI transfer (R171 to R173, R183). Reads have no row in the
table and change no state. -/
namespace Sys2Proof.Machine

/-- STATION word 0 (section 11.2, R173). -/
def State.stationWord0 (s : State) : Word :=
  packWord [(0, (s.station.state.map StationState.code).getD 0), (3, bit s.station.incarnation.isSome),
    (8, (s.station.incarnation.getD 0#8).toNat)]

/-- The code and the failing position of a check result (section 11.2, R173). -/
def CheckResult.fields : CheckResult → Nat × Nat
  | .good => (0, 0)
  | .badSum => (1, 0)
  | .badField position => (2, position)

/-- RESETCAUSE (section 11.2, R173). -/
def State.resetCauseWord (s : State) : Word :=
  let f := (s.latch.check.map CheckResult.fields).getD (0, 0)
  packWord [(0, s.latch.cause.code), (4, f.1), (8, f.2)]

/-- The contents of a register (section 11.2); addresses not listed read 0x0000 (R172). -/
def State.registerValue (s : State) (addr : BitVec 7) : Word :=
  let b := s.latch.bytes
  match addr.toNat with
  | 0x00 => Config.ident
  | 0x01 => wordOfBytes b.stationNumber b.stationCount
  | 0x02 => wordOfBytes b.rateAndCap b.presenceInterval
  | 0x03 => wordOfBytes b.silenceMultiplier b.replyTimeout
  | 0x04 => wordOfBytes b.attemptLimit b.checkByte
  | 0x05 => s.stationWord0
  | 0x06 => s.marks.own
  | 0x07 => s.resetCauseWord
  | 0x08 => s.host.cmd
  | 0x09 => s.param 0
  | 0x0A => s.param 1
  | 0x0B => s.param 2
  | 0x0C => s.param 3
  | 0x0D => s.host.result
  | 0x10 => s.host.views[0]
  | 0x11 => s.host.views[1]
  | 0x12 => s.host.views[2]
  | 0x13 => s.host.views[3]
  | 0x14 => s.host.views[4]
  | 0x15 => s.host.views[5]
  | 0x16 => s.host.views[6]
  | 0x17 => s.host.views[7]
  | 0x18 => s.attnRegister
  | 0x19 => s.host.attnen.setWidth 16
  | 0x1A => s.ring.producer
  | 0x1B => s.ring.consumer
  | _ => 0#16

/-- A host read (R171, R172): 0x0000 while the configuration memory is read and while a start reset lasts (log 8). -/
def State.readRegister (s : State) (addr : BitVec 7) : Word :=
  if s.phase = .running then s.registerValue addr else 0#16

/-! ## The SPI transfer (R171) -/

/-- What a transfer asks for. -/
inductive SpiTransfer where
  | read (addr : BitVec 7)
  | write (addr : BitVec 7) (value : Word)
  | discarded
deriving DecidableEq, Repr

/-- Bits, most significant first, as a number. -/
def natOfBits (bits : List Bool) : Nat := bits.foldl (fun n b => 2 * n + bit b) 0

/-- The transfer whose SDI bits, one a rising edge of SCK, are `bits` (R171): bit 7 of the control byte tells a write;
a write ended before the 24th edge is discarded, bits beyond the 24th are ignored. -/
def spiTransfer (bits : List Bool) : SpiTransfer :=
  if bits.length < 8 then .discarded
  else
    let addr := BitVec.ofNat 7 (natOfBits ((bits.take 8).drop 1))
    if bits.headD false then
      if bits.length < 24 then .discarded else .write addr (BitVec.ofNat 16 (natOfBits ((bits.take 24).drop 8)))
    else .read addr

/-- The number of clocks of a control byte, and of a whole transfer (R171). -/
def controlClocks : Nat := 8
def transferClocks : Nat := 24

/-- SDO in a transfer of SDI bits `bits` after `falls` falling edges of SCK; absent while it is high-impedance (R171).
`value` is the register's value taken at the falling edge that follows the eighth rising edge: its bits stand on SDO
from that edge on, most significant first, one a clock for sixteen clocks. -/
def sdo (scsLow : Bool) (bits : List Bool) (value : Word) (falls : Nat) : Option Bool :=
  if scsLow then
    match spiTransfer (bits.take controlClocks) with
    | .read _ =>
        if controlClocks ≤ falls && falls < transferClocks then some (value.getLsbD (transferClocks - 1 - falls))
        else some (Config.sdoUnstated falls)
    | .write _ _ | .discarded => some (Config.sdoUnstated falls)
  else none

/-- SDO of a transfer whose value is taken in state `s` (R171, R172). -/
def State.sdo (s : State) (scsLow : Bool) (bits : List Bool) (falls : Nat) : Option Bool :=
  Machine.sdo scsLow bits (match spiTransfer (bits.take controlClocks) with
    | .read addr => s.readRegister addr
    | .write _ _ | .discarded => 0#16) falls

/-- The bits that a read of `value` has shifted out when the transfer ends after `clocks` rising edges, most significant
first: sixteen, or fewer if it ended early (R171). -/
def shiftedOut (value : Word) (clocks : Nat) : List Bool :=
  (List.range (min 16 (clocks - controlClocks))).map fun k => value.getLsbD (15 - k)

/-- The row that a write transfer is (R172, R174, section 11.2). -/
def rowOfWrite (addr : BitVec 7) (value : Word) : Instr :=
  let operand := highByte value
  if addr = Config.addrCmd then
    match (lowByte value).toNat with
    | 0x01 => .join operand
    | 0x02 => .leave operand
    | 0x03 => .clearIsolation operand
    | 0x04 => .softReset operand
    | 0x05 => .setWindow operand
    | 0x06 => .setRing operand
    | 0x07 => .start operand
    | 0x08 => .abort operand
    | 0x09 => .clear operand
    | 0x0A => .advanceMark operand
    | 0x10 => .readChannel operand
    | 0x11 => .readPeer operand
    | 0x12 => .readWindow operand
    | 0x13 => .readWatch operand
    | 0x14 => .readPeerChanges operand
    | _ => .unknownCommand (lowByte value) operand
  else if addr = Config.addrAttn then .attnWrite value
  else if addr = Config.addrAttnen then .attnenWrite value
  else if addr = Config.addrRingcons then .consumerWrite value
  else .registerWrite addr value

end Sys2Proof.Machine
end

