-- ==== Sys2Proof/Machine/Wire.lean ====
section
/-! DEFINITION. Messages as bytes and bits on the peer bus: layout (section 2.2), check (R19), framing (R17), what the
station drives (R17), the activities of the line and the row that each is (R18 to R22), and readback (R35). -/
namespace Sys2Proof.Machine

/-! ## Check (R19) -/

/-- One bit, the most significant first, enters the CRC. -/
def crcBit (crc : Word) (b : Bool) : Word :=
  if (crc.msb ^^ b) then (crc <<< 1) ^^^ 0x1021#16 else crc <<< 1

/-- The eight bits of a byte, most significant first (R17, R19). -/
def bitsOfByte (b : Byte) : List Bool :=
  [b.getLsbD 7, b.getLsbD 6, b.getLsbD 5, b.getLsbD 4, b.getLsbD 3, b.getLsbD 2, b.getLsbD 1, b.getLsbD 0]

/-- The check of a message: CRC-16, polynomial 0x1021, preset 0xFFFF, no inversion (R19). -/
def crc16 (bytes : List Byte) : Word := (bytes.flatMap bitsOfByte).foldl crcBit 0xFFFF#16

/-! ## Layout (section 2.2): most significant byte first -/

/-- Two bytes of a word. -/
def wordBytes (w : Word) : List Byte := [highByte w, lowByte w]

/-- Three bytes of an offset. -/
def offsetBytes (o : BitVec 24) : List Byte := [o.extractLsb' 16 8, o.extractLsb' 8 8, o.extractLsb' 0 8]

/-- The kind code (section 2.2). -/
def Body.kind : Body → Byte
  | .join _ => 1#8
  | .presence _ => 2#8
  | .leave _ => 3#8
  | .ask _ => 4#8
  | .grant _ _ => 5#8
  | .write _ _ _ _ _ _ => 6#8
  | .read _ _ _ _ _ _ => 7#8
  | .ack _ _ _ _ => 8#8
  | .data _ _ _ _ _ => 9#8

/-- The kind fields, in order from byte 4 (section 2.2). -/
def Body.fields : Body → List Byte
  | .join m | .presence m | .leave m => wordBytes m
  | .ask wanted => [wanted]
  | .grant credits echo => [credits, echo]
  | .write tag seq low window offset payload =>
      [tag, seq, low, window] ++ offsetBytes offset ++ [BitVec.ofNat 8 payload.length] ++ payload
  | .read tag seq low window offset length => [tag, seq, low, window] ++ offsetBytes offset ++ [length]
  | .ack tag seq echo status => [tag, seq, echo, status]
  | .data tag seq echo status payload =>
      [tag, seq, echo, status, BitVec.ofNat 8 payload.length] ++ payload

/-- The bytes before the check. -/
def Message.head (m : Message) : List Byte := [m.dest, m.source, m.body.kind, m.inc] ++ m.body.fields

/-- The bytes of a message, with its check (R19). -/
def Message.bytes (m : Message) : List Byte := m.head ++ wordBytes (crc16 m.head)

/-- The kind fields read back: absent when the kind is not 1 to 9 or the length is not the one the kind table gives. -/
def parseBody (kind : Byte) (fields : List Byte) : Option Body :=
  match kind.toNat, fields with
  | 1, [h, l] => some (.join (wordOfBytes l h))
  | 2, [h, l] => some (.presence (wordOfBytes l h))
  | 3, [h, l] => some (.leave (wordOfBytes l h))
  | 4, [wanted] => some (.ask wanted)
  | 5, [credits, echo] => some (.grant credits echo)
  | 6, tag :: seq :: low :: window :: o2 :: o1 :: o0 :: len :: payload =>
      if payload.length = len.toNat then some (.write tag seq low window (o2 ++ o1 ++ o0) payload) else none
  | 7, [tag, seq, low, window, o2, o1, o0, len] => some (.read tag seq low window (o2 ++ o1 ++ o0) len)
  | 8, [tag, seq, echo, status] => some (.ack tag seq echo status)
  | 9, tag :: seq :: echo :: status :: len :: payload =>
      if payload.length = len.toNat then some (.data tag seq echo status payload) else none
  | _, _ => none

/-- Well-formed by its kind fields and destination (R21); the length of the whole is judged by `parseBody`. -/
def Message.wellFormed (m : Message) : Bool :=
  match m.body with
  | .join _ | .presence _ | .leave _ => m.dest = Config.toAll
  | .ask n => decide (m.dest.toNat < 16) && m.dest != m.source && wfCredits n
  | .grant n _ => decide (m.dest.toNat < 16) && m.dest != m.source && wfCredits n
  | .write tag _ _ window offset payload =>
      decide (m.dest.toNat < 16) && m.dest != m.source && wfRequest tag window offset payload.length
  | .read tag _ _ window offset length =>
      decide (m.dest.toNat < 16) && m.dest != m.source && wfRequest tag window offset length.toNat
  | .ack tag _ _ status => decide (m.dest.toNat < 16) && m.dest != m.source && wfReply tag status
  | .data tag _ _ status payload =>
      decide (m.dest.toNat < 16) && m.dest != m.source && wfReply tag status && wfDataLength status payload.length

/-! ## The row that an activity is (R18, R19, R22) -/

/-- The row of a message addressed to this station (R23). -/
def Message.row (m : Message) : Instr :=
  match m.body with
  | .join mark => .joinHeard m.source m.inc mark
  | .presence mark => .presenceHeard m.source m.inc mark
  | .leave mark => .leaveHeard m.source m.inc mark
  | .ask n => .askHeard m.source m.inc n
  | .grant n echo => .grantHeard m.source m.inc n echo
  | .write tag seq low window offset payload => .writeHeard m.source m.inc tag seq low window offset payload
  | .read tag seq low window offset length => .readHeard m.source m.inc tag seq low window offset length
  | .ack tag seq echo status => .ackHeard m.source m.inc tag seq echo status
  | .data tag seq echo status payload => .dataHeard m.source m.inc tag seq echo status payload

/-- The row of a heard message (R22), by its bytes before the check, at station `own` in a group of `n`. -/
def rowOfHeard (own n : Nat) (head : List Byte) : Instr :=
  match head with
  | dest :: source :: kind :: inc :: fields =>
      if source.toNat = own then .ownNumberHeard
      else if n ≤ source.toNat then .sourceNOrHigherHeard source
      else
        match parseBody kind fields with
        | none => .malformedMessage source
        | some body =>
            let m : Message := { dest, source, inc, body }
            if !m.wellFormed then .malformedMessage source
            else if dest.toNat = own || dest = Config.toAll then m.row
            else .overheardMessage dest source kind inc
  | _ => .badCheckActivity

/-- The row of a well-framed activity of these bytes (R18, R19): 7 to 78 bytes with a good check are a message heard. -/
def rowOfBytes (own n : Nat) (bytes : List Byte) : Instr :=
  let head := bytes.take (bytes.length - 2)
  if 7 ≤ bytes.length && bytes.length ≤ 78 && bytes.drop (bytes.length - 2) = wordBytes (crc16 head) then
    rowOfHeard own n head
  else .badCheckActivity

/-! ## The line (R17, R18, R35, R36). A level is true when recessive. -/

/-- The ten levels of a byte: a dominant start bit, the data bits most significant first, a recessive stop bit (R17). -/
def lineByte (b : Byte) : List Bool := false :: bitsOfByte b ++ [true]

/-- The levels of a message, its bytes back to back (R17). -/
def lineBits (bytes : List Byte) : List Bool := bytes.flatMap lineByte

/-- The byte of eight data bits. -/
def byteOfBits (b7 b6 b5 b4 b3 b2 b1 b0 : Bool) : Byte :=
  BitVec.ofNat 8 (128 * bit b7 + 64 * bit b6 + 32 * bit b5 + 16 * bit b4 + 8 * bit b3 + 4 * bit b2 + 2 * bit b1 + bit b0)

/-- The bytes of an activity's levels; absent when a start bit is not dominant or a stop bit not recessive, or bits are
left over (R18: garbled). -/
def deframe : List Bool → Option (List Byte)
  | [] => some []
  | false :: b7 :: b6 :: b5 :: b4 :: b3 :: b2 :: b1 :: b0 :: true :: rest =>
      (deframe rest).map fun bytes => byteOfBits b7 b6 b5 b4 b3 b2 b1 b0 :: bytes
  | _ => none

/-- The row of an activity by its levels, one a bit time (R18). -/
def rowOfLine (own n : Nat) (levels : List Bool) : Instr :=
  match deframe levels with
  | some bytes => rowOfBytes own n bytes
  | none => .badCheckActivity

/-! ## Activities (R18) -/

/-- The receiver within an activity: its levels so far, how many levels of the present byte have passed (0 between two
bytes), whether the bytes have been lost, and for how many bit times the line has been recessive since the end of a
stop bit or, once the bytes are lost, since the last dominant level. -/
structure Reception where
  levels : List Bool
  place : Nat
  lost : Bool
  quiet : Nat
deriving DecidableEq, Repr

/-- One more bit time of an activity. A recessive level within a byte is part of the byte; a stop bit found dominant, or
a start bit after a gap, loses the bytes (log 32). -/
def Reception.next (r : Reception) (level : Bool) : Reception :=
  let r := { r with levels := r.levels ++ [level] }
  if r.lost || r.place = 0 then
    if level then { r with quiet := r.quiet + 1 }
    else if r.lost || (r.quiet ≠ 0 && 1 < r.levels.length) then { r with lost := true, quiet := 0 }
    else { r with place := 1, quiet := 0 }
  else if r.place < 9 then { r with place := r.place + 1 }
  else if level then { r with place := 0 }
  else { r with lost := true, quiet := 0 }

/-- The row of an activity that has ended: garbled where its bytes were lost (R18). -/
def Reception.row (own n quiet : Nat) (r : Reception) : Instr :=
  if r.lost then .badCheckActivity else rowOfLine own n (r.levels.take (r.levels.length - quiet))

/-- The bit times of recessive level that end an activity, and without which none begins (R18). -/
def quietBits : Nat := 10

/-- The rows that the levels of the line make, one level a bit time (R18): a beginning for each activity, and for each
activity end recognised the row of the activity that ended. `none` stands for a line recessive for 10 bit times or
more. -/
def receive (own n : Nat) : Option Reception → List Bool → List Instr
  | _, [] => []
  | none, true :: rest => receive own n none rest
  | none, false :: rest =>
      .activityBegin :: receive own n (some { levels := [false], place := 1, lost := false, quiet := 0 }) rest
  | some r, level :: rest =>
      let r := r.next level
      if r.quiet < quietBits then receive own n (some r) rest
      else r.row own n quietBits :: receive own n none rest

/-- The rows that a receiver makes of the levels from the moment it turns on, the line having been recessive for `idle`
bit times before: less than 10 are a line that is not idle, and an activity begins at once (R18). -/
def receiveFrom (own n idle : Nat) (levels : List Bool) : List Instr :=
  if quietBits ≤ idle then receive own n none levels
  else .activityBegin :: receive own n (some { levels := [], place := 0, lost := false, quiet := idle }) levels

/-- The rows made of the levels after an activity end that is not yet recognised, the line having been recessive for
`quiet` bit times since: none where it stays so for 10 bit times. Where it does not, the activity goes on and is garbled
(R18); that the line is not idle is told by a beginning (log 32). -/
def receiveAfterEnd (own n : Nat) : Nat → List Bool → List Instr
  | _, [] => []
  | quiet, true :: rest =>
      if quiet + 1 < quietBits then receiveAfterEnd own n (quiet + 1) rest else receive own n none rest
  | _, false :: rest =>
      .activityBegin :: receive own n (some { levels := [false], place := 0, lost := true, quiet := 0 }) rest

/-- The rows that station `s` makes of the levels of the line while it listens (section 2.3): its receiver is off in other
station states and while it transmits. `r` is how the receiver stands. Within an activity it goes on receiving; of one
in which the station abandoned its message only the end is observed (R24, R35). With the line idle for less than 10 bit
times, a warm station comes from the end of its own transmission (R25, R34) and a cold one has just turned its receiver
on (R18). -/
def State.rowsHeard (s : State) (r : Reception) (levels : List Bool) : List Instr :=
  if s.listening then
    match s.bus.line with
    | .activity => receive s.own s.stationCount (some r) levels
    | .abandoned => receive s.own s.stationCount (some { r with lost := true }) levels
    | .idle =>
        match s.bus.slotRef with
        | .cold => receiveFrom s.own s.stationCount r.quiet levels
        | .warm _ =>
            if quietBits ≤ r.quiet then receive s.own s.stationCount none levels
            else receiveAfterEnd s.own s.stationCount r.quiet levels
  else []

/-! ## What the station drives, and readback (R17, R35, R36) -/

/-- The line carries the dominant level wherever either station drives it (section 2.1, R36). -/
def lineAnd (a b : List Bool) : List Bool := List.zipWith (fun x y => x && y) a b

/-- The bit in which a mismatch between what was driven and what is read back is found; absent when there is none
(R35). -/
def firstMismatch : List Bool → List Bool → Option Nat
  | d :: driven, r :: read => if d = r then (firstMismatch driven read).map (· + 1) else some 0
  | _, _ => none

/-- TXEN: the line driver is enabled in a transmission and at no other time; an abandoned message is out of the transmit
buffer at the end of the bit in which it is abandoned (R17, R35). -/
def State.txen (s : State) : Bool := s.bus.transmit.isSome

/-- The levels that the station drives from the start of the first start bit of its transmission, one a bit time (R17);
none outside a transmission. -/
def State.driven (s : State) : List Bool :=
  match s.bus.transmit with
  | none => []
  | some x => lineBits x.message.bytes

/-- TXD in bit time `n` of the transmission; absent where the station does not drive the line (R17). -/
def State.txd (s : State) (n : Nat) : Option Bool := s.driven[n]?

/-- The row that the levels read back so far make of the transmission in progress: a clash at the end of the first bit
that differs, its end after the last stop bit, and none before (R34, R35). -/
def State.readback (s : State) (read : List Bool) : Option Instr :=
  if s.txen then
    match firstMismatch s.driven read with
    | some _ => some .transmissionClash
    | none => if s.driven.length ≤ read.length then some .transmissionEnd else none
  else none

/-- The bit time in ns, by the rate code of the latch (R17, section 2.1); none applies in CONFIG-FAULT and before the
configuration has been checked. A slot time is 16 of them. -/
def State.bitTime (s : State) : Option Nat :=
  if s.latch.check = some .good then some (800 / 2 ^ s.rateCode) else none

end Sys2Proof.Machine
end

