-- ==== Sys2Proof/Safety.lean ====
section
/-! DEFINITION. The terms in which claims speak: what is heard, what a command leaves in the host port, which bytes of
local memory a write reaches, which commands may change which state, and the invariants of the collections. Nothing
here is used by the machine. -/
namespace Sys2Proof.Safety

open Sys2Proof.Machine

/-! ## What is heard -/

/-- The station listens, to no activity in which it abandoned its own message (R35), and `source` is a peer `p` of the
group (R22, past steps 1 and 2). -/
def Hearing (s : State) (source : Byte) (p : Station) : Prop :=
  s.listening = true ∧ s.bus.line ≠ .abandoned ∧ source.toNat = p.val ∧ p.val ≠ s.own ∧ p.val < s.stationCount

/-- The bus interface after a message heard from `p` (R22 steps 3 to 5, R25). -/
def heardLine (s : State) (p : Station) : State :=
  { s with bus := { s.bus with slotRef := .warm p, line := .idle, slotClock := 0 } }

/-- The same after a message or activity that leaves the station cold (R24, R25). -/
def coldLine (s : State) : State :=
  { s with bus := { s.bus with slotRef := .cold, line := .idle, slotClock := 0 } }

/-- The state in which a message without a mark from `p` is delivered: the line and the peer table have taken it
(R22, R38). -/
def delivered (s : State) (p : Station) (inc : Byte) : State := (heardLine s p).presenceUpdate p inc none false

/-- The source of a message heard, for the rows that carry one and may carry the own number. -/
def heardSource : Instr → Option Byte
  | .malformedMessage source => some source
  | .joinHeard source _ _ | .presenceHeard source _ _ | .leaveHeard source _ _ => some source
  | .askHeard source _ _ | .grantHeard source _ _ _ => some source
  | .writeHeard source _ _ _ _ _ _ _ | .readHeard source _ _ _ _ _ _ _ => some source
  | .ackHeard source _ _ _ _ _ | .dataHeard source _ _ _ _ _ _ => some source
  | _ => none

/-! ## Host writes -/

/-- A write of a register of the host port (R171): a command or another register write. -/
def isHostWrite : Instr → Bool
  | .join _ | .leave _ | .clearIsolation _ | .softReset _ | .setWindow _ | .setRing _ | .start _ | .abort _ | .clear _
  | .advanceMark _ | .readChannel _ | .readPeer _ | .readWindow _ | .readWatch _ | .readPeerChanges _
  | .unknownCommand _ _ | .consumerWrite _ | .attnWrite _ | .attnenWrite _ | .registerWrite _ _ => true
  | _ => false

/-- A write of CMD (R174). -/
def isCommand : Instr → Bool
  | .consumerWrite _ | .attnWrite _ | .attnenWrite _ | .registerWrite _ _ => false
  | c => isHostWrite c

/-- A READ command (R176). -/
def isReadCommand : Instr → Bool
  | .readChannel _ | .readPeer _ | .readWindow _ | .readWatch _ | .readPeerChanges _ => true
  | _ => false

/-- A reset: a start reset or the SOFT RESET command. -/
def isReset : Instr → Bool
  | .powerOn _ | .resetPinAssert _ | .softReset _ => true
  | _ => false

/-- CMD after a write of it: the code in bits 0 to 7, the operand in bits 8 to 15 (R174). -/
def commanded (s : State) (code operand : Byte) : State :=
  { s with host := { s.host with cmd := operand ++ code } }

/-- RESULT after a command: the result code in bits 0 to 7, the code of the command in bits 8 to 15 (R174). -/
def resulted (s : State) (code result : Byte) : State :=
  { s with host := { s.host with result := code ++ result } }

/-- A command that only answers: CMD and RESULT are written, nothing else. -/
def answeredOnly (s : State) (code operand result : Byte) : State := resulted (commanded s code operand) code result

/-! Result codes (section 11.2). -/

def accepted : Byte := 1#8
def busy : Byte := 2#8
def wrongState : Byte := 3#8
def badParameter : Byte := 4#8
def noEffect : Byte := 5#8

/-- The station state is entered and the STATION cause set (R16). -/
def entered (s : State) (st : StationState) : State :=
  { s with station := { s.station with state := some st }, host := { s.host with stationCause := true } }

/-- The description of a change of one peer entry. -/
def withPeer (s : State) (p : Station) (q : PeerEntry) : State := { s with peers := s.peers.set p q }

/-- The access in progress has ended and the port is idle (R162). -/
def portIdle (s : State) : State := { s with port := { s.port with current := none } }

/-! ## Local memory -/

/-- What local address `a` was last written with, when the bytes of `bytes`, laid from `first` upward, have been written
over `m` where `took` says so. -/
def byteAfter (m : Memory) (first : Nat) (bytes : List Byte) (took : Nat → Bool) (a : Nat) : Option Byte :=
  if first ≤ a ∧ a < first + bytes.length ∧ took (a - first) = true then bytes[a - first]? else Memory.read m a

/-- The write access in progress, if the access in progress is a write. -/
def writeInProgress (s : State) : Option Access :=
  match s.port.current with
  | some cur => if cur.access.requester.isWrite then some cur.access else none
  | none => none

/-- `w` is local memory when the access in progress has been cut short or has ended, byte `j` written if `took j`. -/
def WrittenBy (s : State) (took : Access → Nat → Bool) (w : Memory) : Prop :=
  ∀ a, Memory.read w a = match writeInProgress s with
    | some x => byteAfter s.written x.addr x.bytes (took x) a
    | none => Memory.read s.written a

/-- Whether byte `j` of a write access is in local memory once the access has ended so (R141, R158, R159): without an error
every byte; after an error those of the cycles before the failing one, and in the failing cycle the low or the high
byte as the memory took it. A failing cycle beyond the access stands for its last one (log 10). -/
def inMemoryAfter (outcome : AccessEnd) (x : Access) (j : Nat) : Bool :=
  match outcome with
  | .ok _ => true
  | .error cycle low high _ =>
      let failing := min cycle ((x.addr + x.bytes.length - 1) / 2 - x.addr / 2)
      let mine := (x.addr + j) / 2 - x.addr / 2
      decide (mine < failing) || decide (mine = failing) && (if (x.addr + j) % 2 = 0 then low else high)

/-- `c` is the row that ends a write access of this requester with `outcome` (R81, R141, R167, R168). -/
def endsWrite (r : Requester) (outcome : AccessEnd) (c : Instr) : Prop :=
  match r with
  | .store _ => c = .storeEnd outcome
  | .record _ => c = .recordWriteEnd outcome
  | .inboundWrite _ => c = .inboundAccessEnd outcome
  | .fetch _ | .load _ | .inboundRead _ => False

/-! ## The ring wait list at isolation (R147, R166) -/

/-- One more than the highest tag of an entry of channel `c`; 0 where it has none. -/
def lastTag (s : State) (c : Chan) : Nat :=
  allTags.foldl (fun n t => if (s.entry t).map (·.chan) = some c then t.val + 1 else n) 0

/-- Of the channels `ended` by one isolation, `a` joins the ring wait list before `b`: two that are ended by a retirement
in the order of those, the last of each channel (R147); two that are ended without one in increasing number (R166); and
one without before one with if it is below that one or below another that is ended no later (log 16). -/
def ringOrder (s : State) (ended : List Chan) (a b : Chan) : Prop :=
  let below (c : Chan) (last : Nat) : Prop := ∃ d ∈ ended, lastTag s d ≠ 0 ∧ lastTag s d ≤ last ∧ c < d
  match lastTag s a, lastTag s b with
  | 0, 0 => a < b
  | 0, last + 1 => below a (last + 1)
  | last + 1, 0 => ¬ below b (last + 1)
  | m + 1, n + 1 => m < n

/-! ## Invariants -/

/-- R52, R60: the bound on slots and grants, the cap on grants and on held credits; and what makes them last: only an
ONLINE station has grants, and outside the running phase there is no station state, no transmission and no credit. -/
structure CreditBooks (s : State) : Prop where
  bound : s.occupied + s.grantSum ≤ 8
  grantCap : ∀ p, s.grantCount p ≤ s.creditCap
  heldCap : ∀ p, (s.peer p).held ≤ s.creditCap
  grantsOnline : s.station.state ≠ some .online → ∀ p, s.grantCount p = 0
  silent : s.phase ≠ .running →
    s.station.state = none ∧ s.bus.transmit = none ∧ ∀ p, (s.peer p).held = 0

/-- A GRANT to `p` is in the transmit buffer and has not been withdrawn. -/
def grantInTransmission (s : State) (p : Station) : Nat :=
  match s.bus.transmit with
  | some x => if x.withdrawn then 0 else match x.item with
      | .control c => if c.isGrantTo p then 1 else 0
      | .reply _ | .request _ => 0
  | none => 0

/-- R31, R61, R63: a peer stands at most once among the ask list and the GRANTs that wait or are being sent, at most one
ASK to it waits, a peer in the ask list has no grant, and only an ONLINE station has GRANTs on their way. -/
structure AskBooks (s : State) : Prop where
  once : ∀ p, s.credit.askList.countP (fun a => a.peer = p) + s.bus.controlQueue.countP (Control.isGrantTo p)
    + grantInTransmission s p ≤ 1
  oneAsk : ∀ p, s.bus.controlQueue.countP (Control.isAskTo p) ≤ 1
  noGrant : ∀ a ∈ s.credit.askList, s.grantCount a.peer = 0
  grantsOnline : s.station.state ≠ some .online → ∀ p,
    s.bus.controlQueue.countP (Control.isGrantTo p) + grantInTransmission s p = 0

/-- R133: no two entries to one peer carry one sequence. -/
def SequencesDistinct (s : State) : Prop :=
  ∀ (t u : Tag) (e f : Entry) (q : Byte), s.entry t = some e → s.entry u = some f → e.peer = f.peer →
    e.seq = some q → f.seq = some q → t = u

/-- The sizes SET RING takes (R164). -/
def isRingSize (n : Nat) : Prop := n = 8 ∨ n = 16 ∨ n = 32 ∨ n = 64 ∨ n = 128 ∨ n = 256

/-- R164, R165: the indices never stand further apart than the ring is large, and a record write in progress has its
place. -/
def RingKept (s : State) : Prop :=
  match s.ring.config with
  | none => s.ring.fill = 0 ∧ s.ring.inProgress = none
  | some g => isRingSize g.size ∧ g.base % 16 = 0 ∧ g.base + 16 * g.size ≤ 0x1000000 ∧ s.ring.fill ≤ g.size
      ∧ (s.ring.inProgress.isSome = true → s.ring.fill < g.size)

/-- R78: no served record holds more than four pairs; R66: no more than four refusal places are taken; R86: no watch
notice counts beyond 65535; R105: no fault record counts more than 255 further faults. -/
structure CountsKept (s : State) : Prop where
  served : ∀ p, (s.peer p).served.length ≤ 4
  refusals : s.credit.refusals ≤ 4
  notices : ∀ w n, (s.window w).notice = some n → n.count ≤ 65535
  faults : ∀ c f, (s.chan c).fault = some f → f.further ≤ 255

/-- The transmitter's invariant (R7, R11): who transmits is JOINING, ONLINE or LEAVING; a LEAVE queued or in the transmit
buffer stands there in LEAVING only; and outside the running phase there is no station state. -/
structure BusKept (s : State) : Prop where
  transmits : s.bus.transmit ≠ none →
    s.station.state = some .joining ∨ s.station.state = some .online ∨ s.station.state = some .leaving
  leave : s.leavePending = true → s.station.state = some .leaving
  silent : s.phase ≠ .running → s.station.state = none

/-- The entries owned by channel `c`. -/
def entriesOf (s : State) (c : Chan) : Nat := allTags.countP fun t => ((s.entry t).map (·.chan)) = some c

/-- R104, R111, R128, R154, R166: at most 4 entries go to one peer and 4 to one channel, 1 with ORDERED; a channel's owned
entries are the entries that carry its number, and none outside RUNNING and DRAINING; the ready list holds channels that
qualify, each once; a member of the wait set is WAITING; the channels of the ring unit are COMPLETING, each once. -/
structure TableBooks (s : State) : Prop where
  perPeer : ∀ p, s.entriesTo p ≤ 4
  perChannel : ∀ c, (s.chan c).owned ≤ (s.chan c).inFlightLimit
  owned : ∀ c, (s.chan c).owned = entriesOf s c
  atRest : ∀ c, (s.chan c).state ≠ .running → (s.chan c).state ≠ .draining → (s.chan c).owned = 0
  counters : ∀ c, (s.chan c).next = (s.chan c).issued ∧
    (s.chan c).done + (s.chan c).failed + (s.chan c).owned ≤ (s.chan c).issued
  ready : ∀ c ∈ s.readyList, s.qualifies c = true
  readyOnce : s.readyList.Nodup
  waits : ∀ c, s.waitOf c ≠ none → (s.chan c).state = .waiting
  records : ∀ c, c ∈ s.ring.waitList ∨ s.ring.inProgress = some c → (s.chan c).state = .completing
  recordsOnce : s.ring.waitList.Nodup ∧ ∀ c ∈ s.ring.waitList, s.ring.inProgress ≠ some c

/-- R32, R33, R53: a credit wait list holds, each once, entries in WAITING-CREDIT addressed to its peer; the request queue
holds, each once, QUEUED entries whose request is not in transmission; and a request in transmission that has not been
withdrawn is that of a QUEUED entry. -/
structure QueueBooks (s : State) : Prop where
  waiting : ∀ p, ∀ t ∈ (s.peer p).waitList,
    ((s.entry t).map fun e => (e.peer, e.state)) = some (p, .waitingCredit)
  waitingOnce : ∀ p, (s.peer p).waitList.Nodup
  queued : ∀ t ∈ s.bus.requestQueue, ((s.entry t).map fun e => (e.state, e.inTransmission)) = some (.queued, false)
  queuedOnce : s.bus.requestQueue.Nodup
  sending : ∀ x t, s.bus.transmit = some x → x.item = .request t → x.withdrawn = false →
    ((s.entry t).map fun e => (e.state, e.inTransmission)) = some (.queued, true)

/-- The entries of channel `c` after its abort has been taken (R142): each carries the aborting mark, none waits for a
credit, and none waits in the request queue. -/
def AbortTaken (s : State) (c : Chan) : Prop :=
  ∀ t e, s.entry t = some e → e.chan = c →
    e.aborting = true ∧ e.state ≠ .waitingCredit ∧ (e.state = .queued → e.inTransmission = true)

/-- What isolation leaves (R14): the station off the bus, with nothing placed at it, nothing promised and no work on the
bus. -/
structure OffTheBus (s : State) : Prop where
  state : s.station.state = some .isolated
  bus : s.bus = BusInterface.cleared
  timers : s.station.joinListen = .stopped ∧ s.station.presence = .stopped
  peers : ∀ p, s.peer p = PeerEntry.cleared
  changes : s.changes = 0#16
  credit : s.credit = CreditUnit.cleared
  slots : s.inbound = InboundServer.cleared
  inQueue : s.port.inQueue = []
  notices : ∀ w, (s.window w).notice = none
  readyList : s.readyList = []
  entries : ∀ t e, s.entry t = some e → e.state = .storing ∨ e.state = .loading ∧ e.retireReason = some .isolated

/-! ## Who may change the station state (section 1.4) -/

/-- The changes of station state that the events of section 1.4 make; `none` is the time of a start reset and of a
configuration read (R1). -/
def stateChangeAllowed (c : Instr) (before after : Option StationState) : Prop :=
  match c with
  | .powerOn _ | .resetPinAssert _ => after = none
  | .softReset _ => before = some .configFault ∧ after = none ∨ before ≠ some .configFault ∧ after = some .offline
  | .configurationReadEnd _ => before = none ∧ (after = some .offline ∨ after = some .configFault)
  | .join _ => before = some .offline ∧ after = some .joining
  | .joinListenTimerExpiry => before = some .joining ∧ after = some .online
  | .leave _ => before = some .online ∧ after = some .leaving
  | .clearIsolation _ => before = some .isolated ∧ after = some .offline
  | .transmissionEnd => before = some .leaving ∧ after = some .offline
  | .transmissionClash | .ownNumberHeard | .malformedMessage _ | .joinHeard _ _ _ | .presenceHeard _ _ _
  | .leaveHeard _ _ _ | .askHeard _ _ _ | .grantHeard _ _ _ _ | .writeHeard _ _ _ _ _ _ _ _ | .readHeard _ _ _ _ _ _ _ _
  | .ackHeard _ _ _ _ _ _ | .dataHeard _ _ _ _ _ _ _ | .overheardMessage _ _ _ _ =>
      (before = some .joining ∨ before = some .online ∨ before = some .leaving) ∧ after = some .isolated
  | _ => False

end Sys2Proof.Safety
end

