-- ==== Sys2Proof/Certificates/Slice0/Obligations.lean ====
section
/-! DEFINITION. The statements for the provers. Each docstring names the rules of spec/ it rests on. Every command answers
a next state from every state; where the part then takes steps of its own, the next state is `settle` of the command's
own effect, and `OwnStepsLeaveTheRestAlone` says what `settle` cannot touch. -/

open Sys2Proof Sys2Proof.Machine Sys2Proof.Safety

/-! ## The queue -/

/-- A step runs the command at the front of the queue on the state with the queue's rest, and idles on an empty queue
(idling is the model's choice, log 3). -/
def Obligations.StepRunsTheFrontCommand : Prop :=
  (∀ (c : Instr) (rest : List Instr) (s : State), s.pending = c :: rest →
    step s = exec c { s with pending := rest }) ∧
  ∀ s : State, s.pending = [] → step s = .next s

/-- Every command answers a next state from every state, and leaves the queue alone. -/
def Obligations.EveryCommandAnswersAndLeavesTheQueue : Prop :=
  ∀ (c : Instr) (s : State), ∃ t, exec c s = .next t ∧ t.pending = s.pending

/-! ## Resets and start (chapter 1) -/

/-- R4, R5: a start reset puts every block at its reset contents and keeps the latch's bytes; POWER-ON sets its cause, a
pin keeps a reset already in progress (log 6). Of a write cut short, the bytes named by `cut` are written. That no access is
left in progress, a descriptor fetch neither, is the model's choice between R125 and R5, R161, R163 (log 35). -/
def Obligations.StartResetClearsEveryBlock : Prop :=
  ∀ (cut : List Bool) (s : State),
    (∃ w, exec (.powerOn cut) s = .next { State.reset with
        phase := .inReset .powerOn, latch := { s.latch with cause := .powerOn }, written := w, pending := s.pending } ∧
      WrittenBy s (fun _ j => cut.getD j false) w) ∧
    ∃ w, exec (.resetPinAssert cut) s = .next { State.reset with
        phase := .inReset (match s.phase with
          | .inReset kind => kind
          | .reading | .running => .pin)
        latch := s.latch, written := w, pending := s.pending } ∧
      WrittenBy s (fun _ j => cut.getD j false) w

/-- R1, R2, R4, R5, R16: the end of a start reset clears the latch's bytes and check result (what cleared bytes hold is the
model's choice, log 7) and begins the read, a pin reset setting its cause then. The end of the read records the bytes,
0xFF for each unanswered one, with their check result, and the station enters OFFLINE or CONFIG-FAULT. An end of what
is not in progress changes nothing (log 2). -/
def Obligations.StartReadsTheConfiguration : Prop :=
  (∀ s : State,
    (∀ kind, s.phase = .inReset kind → exec .resetEnd s = .next { s with
      phase := .reading
      latch := { bytes := .cleared, check := none, cause := if kind = .pin then .pin else s.latch.cause } }) ∧
    ((∀ kind, s.phase ≠ .inReset kind) → exec .resetEnd s = .next s)) ∧
  (∀ (answers : List (Option Byte)) (s : State),
    let byteAt (i : Nat) : Byte := (answers.getD i none).getD 0xFF#8
    let b : ConfigBytes :=
      { stationNumber := byteAt 0, stationCount := byteAt 1, rateAndCap := byteAt 2, presenceInterval := byteAt 3
        silenceMultiplier := byteAt 4, replyTimeout := byteAt 5, attemptLimit := byteAt 6, checkByte := byteAt 7 }
    (s.phase = .reading → exec (.configurationReadEnd answers) s = .next
      (entered { s with phase := .running, latch := { s.latch with bytes := b, check := some b.check } }
        (if b.check = .good then .offline else .configFault))) ∧
    (s.phase ≠ .reading → exec (.configurationReadEnd answers) s = .next s))

/-- R2: the sum is tested first, then bytes 0 to 6 from byte 0 upward against the table of section 1.1. -/
def Obligations.ConfigurationCheckFollowsItsOrder : Prop :=
  ∀ b : ConfigBytes,
    let sum := b.stationNumber.toNat + b.stationCount.toNat + b.rateAndCap.toNat + b.presenceInterval.toNat
      + b.silenceMultiplier.toNat + b.replyTimeout.toNat + b.attemptLimit.toNat + b.checkByte.toNat
    let good (i : Nat) : Prop := match i with
      | 0 => b.stationNumber.toNat ≤ 15 ∧ b.stationNumber.toNat < b.stationCount.toNat
      | 1 => 2 ≤ b.stationCount.toNat ∧ b.stationCount.toNat ≤ 16
      | 2 => b.rateAndCap.toNat ≤ 15
      | 3 => 2 ≤ b.presenceInterval.toNat ∧ b.presenceInterval.toNat ≤ 32 ∧ b.presenceInterval.toNat % 2 = 0
      | 4 => 3 ≤ b.silenceMultiplier.toNat ∧ b.silenceMultiplier.toNat ≤ 8
      | 5 => 2 ≤ b.replyTimeout.toNat ∧ b.replyTimeout.toNat ≤ 64
      | 6 => 1 ≤ b.attemptLimit.toNat ∧ b.attemptLimit.toNat ≤ 8
      | _ => True
    (b.check = .badSum ↔ sum % 256 ≠ 0x5A) ∧
    (b.check = .good ↔ sum % 256 = 0x5A ∧ ∀ i < 7, good i) ∧
    ∀ i, b.check = .badField i ↔ sum % 256 = 0x5A ∧ i < 7 ∧ ¬ good i ∧ ∀ j < i, good j

/-- R1, R171, R182: outside the running phase every read returns 0x0000, every host write is discarded and the ATTN line
is inactive (during a start reset the first two are the model's choice, log 8). -/
def Obligations.HostPortIsSilentOutsideRunning : Prop :=
  ∀ s : State, s.phase ≠ .running →
    (∀ a, s.readRegister a = 0#16) ∧ s.attnLine = false ∧ ∀ c, isHostWrite c = true → exec c s = .next s

/-- R6, R163, R184: SOFT RESET in every station state. A running access runs on with its result dropped; in CONFIG-FAULT
the configuration memory is read again, otherwise the station enters OFFLINE. -/
def Obligations.SoftResetReturnsToResetContents : Prop :=
  ∀ (op : Byte) (s : State), s.phase = .running →
    let after : State := { State.reset with
      latch := { s.latch with cause := .soft }
      port := { outQueue := [], inQueue := [], lastSide := .inbound
                current := s.port.current.map fun cur => { cur with dropped := true } }
      host := { HostPort.cleared with cmd := op ++ 0x04#8, result := 0x0401#16 }
      written := s.written
      pending := s.pending }
    exec (.softReset op) s = .next
      (if s.station.state = some .configFault then { after with phase := .reading }
       else entered { after with phase := .running } .offline)

/-! ## Commands refused by the station state (R3, R175) -/

/-- R3, R8, R10, R15, R69, R108, R151, R164, R174, R175: in a station state that does not take it a command answers
WRONG-STATE, and a code that names no command answers BAD-PARAMETER; nothing but CMD and RESULT changes. -/
def Obligations.RefusedCommandsOnlyAnswer : Prop :=
  (∀ (op : Byte) (s : State), s.phase = .running →
    (s.station.state ≠ some .offline →
      exec (.join op) s = .next (answeredOnly s 0x01 op wrongState) ∧
      exec (.setWindow op) s = .next (answeredOnly s 0x05 op wrongState) ∧
      exec (.setRing op) s = .next (answeredOnly s 0x06 op wrongState)) ∧
    (s.station.state ≠ some .online →
      exec (.leave op) s = .next (answeredOnly s 0x02 op wrongState) ∧
      exec (.advanceMark op) s = .next (answeredOnly s 0x0A op wrongState)) ∧
    (s.station.state ≠ some .isolated →
      exec (.clearIsolation op) s = .next (answeredOnly s 0x03 op wrongState)) ∧
    (s.station.state = some .configFault →
      exec (.start op) s = .next (answeredOnly s 0x07 op wrongState))) ∧
  (∀ (code op : Byte) (s : State), s.phase = .running →
    ¬ (1 ≤ code.toNat ∧ code.toNat ≤ 0x0A ∨ 0x10 ≤ code.toNat ∧ code.toNat ≤ 0x14) →
    exec (.unknownCommand code op) s = .next (answeredOnly s code op badParameter))

/-! ## Membership (R8 to R15) -/

/-- R8: JOIN in OFFLINE, with its two checks and its six effects; in any other station state it is refused with
WRONG-STATE. That an accepted JOIN finds the line idle and counts slot times from then on is the model's choice (log 23,
log 15). -/
def Obligations.JoinEntersJoining : Prop :=
  ∀ (op : Byte) (s : State), s.phase = .running →
    let u := commanded s 0x01 op
    let good := s.ring.config.isSome = true ∧ (s.param 0).toNat ≤ 255
    (s.station.state ≠ some .offline → exec (.join op) s = .next (answeredOnly s 0x01 op wrongState)) ∧
    (s.station.state = some .offline → good →
      exec (.join op) s = .next (resulted (entered { u with
        station := { u.station with
          incarnation := some ((s.param 0).extractLsb' 0 8)
          joinListen := .running
            (s.latch.bytes.presenceInterval.toNat * s.latch.bytes.silenceMultiplier.toNat) }
        marks := { u.marks with own := 0#16 }
        peers := u.peers.map fun q => { q with nextSeq := 0#8 }
        bus := { u.bus with
          slotRef := .cold, clashCount := 0, line := .idle, slotClock := 0
          controlQueue := u.bus.controlQueue ++ [.join] } } .joining) 0x01 accepted)) ∧
    (s.station.state = some .offline → ¬ good →
      exec (.join op) s = .next (answeredOnly s 0x01 op badParameter))

/-- R10, R11, R15: LEAVE in ONLINE is BUSY unless every channel is IDLE or FAULTED; on entering LEAVING every grant is
reclaimed, the ask list emptied, every waiting GRANT and ASK withdrawn and every asked mark cleared, and the part then
takes its due steps (log 1, log 17). CLEAR ISOLATION in ISOLATED is BUSY unless the channels are at rest and no record
waits or is being written. -/
def Obligations.LeaveAndClearIsolation : Prop :=
  (∀ (op : Byte) (s : State), s.phase = .running → s.station.state = some .online →
    let u := commanded s 0x02 op
    let atRest := ∀ c, (s.chan c).state = .idle ∨ (s.chan c).state = .faulted
    (atRest → exec (.leave op) s = .next (resulted (State.settle (entered { u with
        credit := { u.credit with askList := [], grants := .replicate 16 0 }
        bus := { u.bus with
          controlQueue := u.bus.controlQueue.filter fun c => !c.isCredit
          transmit := u.bus.transmit.map fun x => match x.item with
            | .control (.ask _ _) | .control (.grant _ _ _) => { x with withdrawn := true }
            | _ => x }
        peers := u.peers.map fun q => { q with asked := false, askTimer := .stopped } } .leaving)) 0x02 accepted)) ∧
    (¬ atRest → exec (.leave op) s = .next (answeredOnly s 0x02 op busy))) ∧
  (∀ (op : Byte) (s : State), s.phase = .running → s.station.state = some .isolated →
    let free := (∀ c, (s.chan c).state = .idle ∨ (s.chan c).state = .faulted) ∧ s.ring.waitList = [] ∧
      s.ring.inProgress = none
    (free → exec (.clearIsolation op) s = .next
      (resulted (entered (commanded s 0x03 op) .offline) 0x03 accepted)) ∧
    (¬ free → exec (.clearIsolation op) s = .next (answeredOnly s 0x03 op busy)))

/-- R9, R31, R43: the join listen timer's expiry in JOINING enters ONLINE and starts the presence timer, and the part then
takes its due steps (log 1, log 17); the presence timer's expiry queues a PRESENCE, dropped while an announcement waits
and once the LEAVE is queued, also while it is sent (log 13), and starts it again. -/
def Obligations.StationTimersExpire : Prop :=
  (∀ (s : State) (ms : Nat), s.station.state = some .joining → s.station.joinListen = .running ms →
    exec .joinListenTimerExpiry s = .next (State.settle
      { s with
        station := { s.station with
          state := some .online, joinListen := .stopped, presence := .running s.latch.bytes.presenceInterval.toNat }
        host := { s.host with stationCause := true } })) ∧
  (∀ (s : State) (ms : Nat), s.station.presence = .running ms →
    exec .presenceTimerExpiry s = .next { s with
      station := { s.station with presence := .running s.latch.bytes.presenceInterval.toNat }
      bus := { s.bus with controlQueue :=
        if (∃ c ∈ s.bus.controlQueue, c = .join ∨ c = .presence ∨ c = .leave) ∨
          s.bus.transmit.map (·.item) = some (.control .leave) then s.bus.controlQueue
        else s.bus.controlQueue ++ [.presence] } })

/-! ## Setting up (R69, R164) -/

/-- R69, R164, R175: SET WINDOW in OFFLINE replaces every field of the window and makes its notice idle; SET RING takes the
ring and sets both indices to 0; parameters out of range answer BAD-PARAMETER, and any other station state WRONG-STATE, and
change nothing else. -/
def Obligations.SettingUpTakesWindowsAndRing : Prop :=
  (∀ (op : Byte) (s : State), s.phase = .running → s.station.state ≠ some .offline →
    exec (.setWindow op) s = .next (answeredOnly s 0x05 op wrongState) ∧
    exec (.setRing op) s = .next (answeredOnly s 0x06 op wrongState)) ∧
  (∀ (op : Byte) (s : State), s.phase = .running → s.station.state = some .offline →
    let base := (s.param 0).toNat + 65536 * ((s.param 1).extractLsb' 0 8).toNat
    let length := (s.param 2).toNat + 65536 * ((s.param 1).extractLsb' 8 8).toNat
    let good := op.toNat % 16 ≤ 7 ∧ 1 ≤ length ∧ length ≤ 1048576 ∧ base + length ≤ 0x1000000 ∧ 1 ≤ op.toNat / 64 ∧
      ∀ p : Station, (s.param 3).getLsbD p.val = true → p.val < s.stationCount ∧ p.val ≠ s.own
    (good → ∀ (w : WindowNo) (rights : Rights), w.val = op.toNat % 16 → rights.code = op.toNat / 64 →
      exec (.setWindow op) s = .next (resulted ((commanded s 0x05 op).setWindowAt w
        { enabled := op.getLsbD 4, base, length, rights, mask := s.param 3, watch := op.getLsbD 5, notice := none })
        0x05 accepted)) ∧
    (¬ good → exec (.setWindow op) s = .next (answeredOnly s 0x05 op badParameter))) ∧
  (∀ (op : Byte) (s : State), s.phase = .running → s.station.state = some .offline →
    let base := (s.param 0).toNat + 65536 * (s.param 1).toNat
    let size := (s.param 2).toNat
    let good := base % 16 = 0 ∧ base ≤ 0xFFFFF0 ∧ isRingSize size ∧ base + 16 * size ≤ 0x1000000
    let u := commanded s 0x06 op
    (good → exec (.setRing op) s = .next (resulted { u with ring := { u.ring with
        config := some { base, size }, producer := 0#16, consumer := 0#16 } } 0x06 accepted)) ∧
    (¬ good → exec (.setRing op) s = .next (answeredOnly s 0x06 op badParameter)))

/-! ## Channels: commands (R108, R121 to R123) -/

/-- R108: START, its five tests in their order, and the values the channel takes; the part then takes its due steps
(log 1, log 17). -/
def Obligations.StartTestsInOrder : Prop :=
  ∀ (op : Byte) (s : State), s.phase = .running →
    let addr := (s.param 0).toNat + 65536 * (s.param 1).toNat
    let u := commanded s 0x07 op
    (s.station.state = some .configFault → exec (.start op) s = .next (answeredOnly s 0x07 op wrongState)) ∧
    (s.station.state ≠ some .configFault → 8 ≤ op.toNat →
      exec (.start op) s = .next (answeredOnly s 0x07 op badParameter)) ∧
    ∀ c : Chan, c.val = op.toNat → s.station.state ≠ some .configFault →
      ((s.chan c).state ≠ .idle → exec (.start op) s = .next (answeredOnly s 0x07 op busy)) ∧
      ((s.chan c).state = .idle → s.station.state ≠ some .online →
        exec (.start op) s = .next (answeredOnly s 0x07 op wrongState)) ∧
      ((s.chan c).state = .idle → s.station.state = some .online → ¬ (addr ≤ 0xFFFFFF ∧ addr % 32 = 0) →
        exec (.start op) s = .next (answeredOnly s 0x07 op badParameter)) ∧
      ((s.chan c).state = .idle → s.station.state = some .online → addr ≤ 0xFFFFFF → addr % 32 = 0 →
        exec (.start op) s = .next (resulted (State.settle
          { u.setChan c { s.chan c with
              state := .fetching, addr := some addr, copy := none, next := 0, issued := 0, done := 0, failed := 0
              owned := 0, flag := .none, chainCancelled := false, fault := none } with
            port := { u.port with
              outQueue := u.port.outQueue ++ [{ requester := .fetch c, addr, length := 32, bytes := [] }] } })
          0x07 accepted))

/-- R110, R121, R122, R142: ABORT by channel state and ending flag, the part then taking its due steps (log 1, log 17);
that a WAITING channel keeps its ending flag into COMPLETING is the model's choice (log 28). Of the channel's entries
each gets the aborting mark and the waiting ones leave their credit wait lists; then, tag by tag, what waits for a
credit retires aborted, what waits in the request queue is withdrawn, its credit returned, and retires aborted, and
what is being loaded, sent, answered or stored runs on. -/
def Obligations.AbortFollowsTheChannel : Prop :=
  (∀ (op : Byte) (s : State), s.phase = .running →
    let u := commanded s 0x08 op
    (8 ≤ op.toNat → exec (.abort op) s = .next (answeredOnly s 0x08 op badParameter)) ∧
    ∀ c : Chan, c.val = op.toNat →
      let ch := s.chan c
      (ch.state = .idle ∨ ch.state = .faulted →
        exec (.abort op) s = .next (answeredOnly s 0x08 op noEffect)) ∧
      (ch.state = .fetching ∨ ch.state = .running ∨ ch.state = .draining → ch.flag ≠ .none →
        exec (.abort op) s = .next (answeredOnly s 0x08 op noEffect)) ∧
      (ch.state = .fetching → ch.flag = .none →
        exec (.abort op) s = .next (resulted (u.setChan c { ch with flag := .aborting }) 0x08 accepted)) ∧
      (ch.state = .running ∨ ch.state = .draining → ch.flag = .none →
        exec (.abort op) s = .next (resulted (State.settle (State.abortEntries
          (u.setChan c { ch with flag := .aborting, state := .draining }).retestReady c)) 0x08 accepted)) ∧
      (ch.state = .waiting → exec (.abort op) s = .next (resulted (State.settle
        (((u.setWait c none).setChan c { ch with waitTimer := .stopped }).complete c .aborted)) 0x08 accepted)) ∧
      (ch.state = .completing →
        let chainFollows := (ch.pending = some .done ∨ ch.pending = some .partly) ∧
          (ch.desc.getD 1 0#8).getLsbD 1 = true ∧ ch.chainCancelled = false
        (chainFollows →
          exec (.abort op) s = .next (resulted (u.setChan c { ch with chainCancelled := true }) 0x08 accepted)) ∧
        (¬ chainFollows → exec (.abort op) s = .next (answeredOnly s 0x08 op noEffect)))) ∧
  ∀ (s : State) (c : Chan),
    let marked := s.markAborting c
    s.abortEntries c = allTags.foldl (fun u t => (u.abortEntry c t).settle) marked ∧
    (∀ t, marked.entry t = (s.entry t).map fun e => if e.chan = c then { e with aborting := true } else e) ∧
    (∀ p, (marked.peer p).waitList = (s.peer p).waitList.filter fun t => match s.entry t with
      | some e => !(e.chan = c && e.state = .waitingCredit && e.peer = p)
      | none => true) ∧
    ∀ t,
      (s.entry t = none → s.abortEntry c t = s) ∧
      ∀ e, s.entry t = some e →
        let q := s.peer e.peer
        (e.chan ≠ c ∨ e.aborting = false → s.abortEntry c t = s) ∧
        (e.chan = c → e.aborting = true →
          (e.state = .waitingCredit → s.abortEntry c t = s.retire t .aborted) ∧
          (e.state = .queued → e.inTransmission = false → s.abortEntry c t = State.retire
            { withPeer s e.peer { q with held := if q.held < s.creditCap then q.held + 1 else q.held } with
              bus := { s.bus with requestQueue := s.bus.requestQueue.filter fun u => u ≠ t } } t .aborted) ∧
          (e.state = .loading ∨ e.state = .queued ∧ e.inTransmission = true ∨ e.state = .sent ∨ e.state = .storing →
            s.abortEntry c t = s))

/-- R121, R142: once ABORT of a RUNNING or DRAINING channel has been taken, each of its entries carries the aborting mark
and none waits for a credit or in the request queue. -/
def Obligations.AbortLeavesNoWaitingEntry : Prop :=
  ∀ (op : Byte) (s t : State) (c : Chan), s.phase = .running → c.val = op.toNat →
    (s.chan c).state = .running ∨ (s.chan c).state = .draining → (s.chan c).flag = .none →
    exec (.abort op) s = .next t → AbortTaken t c

/-- R123: CLEAR; and the FAULT cause is active while some channel is FAULTED. -/
def Obligations.ClearReleasesAFaultedChannel : Prop :=
  ∀ (op : Byte) (s : State), s.phase = .running →
    (s.faultCause = true ↔ ∃ c, (s.chan c).state = .faulted) ∧
    (8 ≤ op.toNat → exec (.clear op) s = .next (answeredOnly s 0x09 op badParameter)) ∧
    ∀ c : Chan, c.val = op.toNat →
      ((s.chan c).state = .faulted → exec (.clear op) s = .next (resulted ((commanded s 0x09 op).setChan c
        { s.chan c with state := .idle, fault := none, flag := .none, addr := none, copy := none }) 0x09 accepted)) ∧
      ((s.chan c).state ≠ .faulted → exec (.clear op) s = .next (answeredOnly s 0x09 op noEffect))

/-- R151, R152: ADVANCE MARK in ONLINE raises the own mark by 1 and queues an early PRESENCE, and the part then takes its
due steps (log 1, log 17); in every other station state it is refused with WRONG-STATE and the mark is unchanged. -/
def Obligations.AdvanceMarkRaisesTheMark : Prop :=
  ∀ (op : Byte) (s : State), s.phase = .running →
    let u := commanded s 0x0A op
    (s.station.state = some .online → exec (.advanceMark op) s = .next (resulted (State.settle
      (State.queuePresence { u with marks := { u.marks with own := u.marks.own + 1#16 } })) 0x0A accepted)) ∧
    (s.station.state ≠ some .online → exec (.advanceMark op) s = .next (answeredOnly s 0x0A op wrongState))

/-! ## READ commands (R70, R87, R124, R176 to R179) -/

/-- R49, R70, R87, R176, R179: READ WINDOW shows the window; READ WATCH returns the notice and sets it to idle; READ PEER
CHANGES returns the set and empties it. -/
def Obligations.ReadWindowWatchAndPeerChanges : Prop :=
  (∀ (op : Byte) (s : State), s.phase = .running →
    (8 ≤ op.toNat → exec (.readWindow op) s = .next (answeredOnly s 0x12 op badParameter)) ∧
    ∀ w : WindowNo, w.val = op.toNat →
      let x := s.window w
      let u := commanded s 0x12 op
      ∃ v : Vector Word 8,
        exec (.readWindow op) s = .next (resulted { u with host := { u.host with views := v } } 0x12 accepted) ∧
        v[0].toNat = bit x.enabled + 2 * bit x.watch + 4 * x.rights.code + 16 * bit x.notice.isSome ∧
        (x.base ≤ 0xFFFFFF → v[1].toNat + 65536 * v[2].toNat = x.base) ∧
        (x.length ≤ 1048576 → v[3].toNat + 65536 * v[4].toNat = x.length) ∧
        v[5] = x.mask ∧ v[6] = 0#16 ∧ v[7] = 0#16) ∧
  (∀ (op : Byte) (s : State), s.phase = .running →
    (8 ≤ op.toNat → exec (.readWatch op) s = .next (answeredOnly s 0x13 op badParameter)) ∧
    (∀ w : WindowNo, w.val = op.toNat →
      let u := commanded s 0x13 op
      ∃ v : Vector Word 8,
        exec (.readWatch op) s = .next (resulted
          ({ u with host := { u.host with views := v } }.setWindowAt w { s.window w with notice := none }) 0x13 accepted) ∧
        (∀ n, (s.window w).notice = some n → n.firstOffset < 1048576 → n.count ≤ 65535 →
          v[0].toNat = 1 + 256 * n.firstPeer.val + 4096 * n.lastPeer.val ∧
          v[1].toNat + 65536 * v[2].toNat = n.firstOffset ∧ v[3].toNat = n.count) ∧
        ((s.window w).notice = none → ∀ i : Fin 8, v[i] = 0#16) ∧ ∀ i : Fin 8, 4 ≤ i.val → v[i] = 0#16) ∧
    let u := commanded s 0x14 op
    exec (.readPeerChanges op) s = .next (resulted
      { u with host := { u.host with views := #v[s.changes, 0#16, 0#16, 0#16, 0#16, 0#16, 0#16, 0#16] }, changes := 0#16 }
      0x14 accepted))

/-- R37, R176, R178: READ PEER, for an entry within the bounds of R52, R53, R60, R61 and R78. -/
def Obligations.ReadPeerShowsTheEntry : Prop :=
  ∀ (op : Byte) (s : State), s.phase = .running →
    (16 ≤ op.toNat → exec (.readPeer op) s = .next (answeredOnly s 0x11 op badParameter)) ∧
    ∀ p : Station, p.val = op.toNat →
      let q := s.peer p
      let u := commanded s 0x11 op
      let asker := s.credit.askList.find? fun a => a.peer = p
      let wanted := (asker.map (·.wanted)).getD 0
      let tag (i : Nat) : Nat := ((q.waitList[i]?).map (·.val)).getD 0
      let seq (i : Nat) : Byte := ((q.served[i]?).map (·.seq)).getD 0#8
      let status (i : Nat) : Nat := ((q.served[i]?).map (·.status.code)).getD 0
      ∃ v : Vector Word 8,
        exec (.readPeer op) s = .next (resulted { u with host := { u.host with views := v } } 0x11 accepted) ∧
        (q.held ≤ 4 → s.grantCount p ≤ 4 → q.waitList.length ≤ 4 → q.served.length ≤ 4 → wanted ≤ 4 →
          v[0].toNat = q.state.code + 4 * bit (q.state = .absent .left) + 8 * bit q.incarnation.isSome
            + 16 * bit q.mark.isSome + 32 * bit q.silence.isRunning + 64 * bit q.asked + 128 * bit q.askTimer.isRunning
            + 256 * q.held + 2048 * bit asker.isSome + 4096 * s.grantCount p ∧
          v[1] = q.nextSeq ++ q.incarnation.getD 0#8 ∧
          v[2] = q.mark.getD 0#16 ∧
          v[3].toNat = q.waitList.length
            + 16 * (allSlots.countP fun i => ((s.slot i).map (·.requester)) = some p)
            + 256 * wanted + 4096 * q.served.length ∧
          v[4].toNat = tag 0 + 16 * tag 1 + 256 * tag 2 + 4096 * tag 3 ∧
          v[5] = seq 1 ++ seq 0 ∧ v[6] = seq 3 ++ seq 2 ∧
          v[7].toNat = status 0 + 8 * status 1 + 64 * status 2 + 512 * status 3)

/-- R124, R176, R177: READ CHANNEL, its three pages; the channel number is tested before the page. -/
def Obligations.ReadChannelShowsThePage : Prop :=
  ∀ (op : Byte) (s : State), s.phase = .running →
    (8 ≤ op.toNat → exec (.readChannel op) s = .next (answeredOnly s 0x10 op badParameter)) ∧
    ∀ c : Chan, c.val = op.toNat →
      let ch := s.chan c
      let u := commanded s 0x10 op
      let shown (v : Vector Word 8) : Prop :=
        exec (.readChannel op) s = .next (resulted { u with host := { u.host with views := v } } 0x10 accepted)
      (2 < (s.param 0).toNat → exec (.readChannel op) s = .next (answeredOnly s 0x10 op badParameter)) ∧
      ((s.param 0).toNat = 0 → ∃ v, shown v ∧
        (ch.owned ≤ 4 → v[0].toNat = ch.state.code + 8 * ch.flag.code + 32 * bit (s.readyList.contains c)
          + 64 * bit (s.ring.waitList.contains c) + 128 * bit ch.waitTimer.isRunning
          + (if ch.state = .completing then 256 * bit ch.pending.isSome
              + 512 * ((ch.pending.map PendingStatus.code).getD 0) + 2048 * bit ch.recordDue
              + 4096 * bit ch.chainCancelled else 0) + 8192 * ch.owned) ∧
        (ch.issued ≤ 1048576 → v[1].toNat + 65536 * v[2].toNat = ch.issued) ∧
        (ch.done ≤ 1048576 → v[3].toNat + 65536 * v[4].toNat = ch.done) ∧
        (ch.failed ≤ 1048576 → v[5].toNat + 65536 * v[6].toNat = ch.failed) ∧ v[7] = 0#16) ∧
      ((s.param 0).toNat = 1 → ∃ v, shown v ∧
        let d := ch.copy.getD []
        let addr := ch.addr.getD 0
        v[0].toNat = bit ch.addr.isSome + 2 * bit ch.copy.isSome + 256 * (d.getD 0 0#8).toNat ∧
        (addr ≤ 0xFFFFFF → v[1].toNat + 65536 * (v[2].extractLsb' 0 8).toNat = addr) ∧
        (addr ≤ 0xFFFFFF → v[2].extractLsb' 8 8 = d.getD 1 0#8) ∧
        v[3] = d.getD 3 0#8 ++ d.getD 2 0#8 ∧
        (v[4].toNat + 65536 * v[5].toNat =
          if ch.copy.isSome = true ∧ (d.getD 0 0#8).toNat ≤ 1 then
            ((d.getD 14 0#8).toNat + 256 * (d.getD 15 0#8).toNat) * ((d.getD 13 0#8).toNat + 1) else 0) ∧
        v[6] = d.getD 29 0#8 ++ d.getD 28 0#8 ∧ v[7] = d.getD 31 0#8 ++ d.getD 30 0#8) ∧
      ((s.param 0).toNat = 2 → ∃ v, shown v ∧
        (ch.fault = none → ∀ i : Fin 8, v[i] = 0#16) ∧
        ∀ f, ch.fault = some f → f.further ≤ 255 → f.addr ≤ 0xFFFFFF → f.piece.getD 0 ≤ 1048576 →
          v[0].toNat = 1 + 2 * bit f.piece.isSome + 4 * bit f.peer.isSome + 256 * f.code.code ∧
          v[1].toNat + 65536 * v[2].toNat = f.piece.getD 0 ∧
          v[3].toNat = (f.peer.map (·.val)).getD 0 + 256 * f.further ∧
          v[4].toNat + 65536 * v[5].toNat = f.addr ∧ v[6] = 0#16 ∧ v[7] = 0#16)

/-! ## Other host writes and attention (R169, R172, R180 to R183) -/

/-- R169: a consumer write is accepted when it lies from the present consumer up to the producer, and then sets the
consumer, upon which the test for a record write is made (R166) and the part takes its due steps (log 1, log 17); any
other is ignored and sets MISUSE. -/
def Obligations.ConsumerWriteStaysInRange : Prop :=
  ∀ (v : Word) (s : State), s.phase = .running →
    ((v - s.ring.consumer).toNat ≤ (s.ring.producer - s.ring.consumer).toNat →
      exec (.consumerWrite v) s
        = .next (State.testRecordWrite { s with ring := { s.ring with consumer := v } }).settle) ∧
    (¬ (v - s.ring.consumer).toNat ≤ (s.ring.producer - s.ring.consumer).toNat →
      exec (.consumerWrite v) s = .next { s with host := { s.host with misuseCause := true } })

/-- R172, R180 to R182: ATTN clears the latched causes where a 1 is written, ATTNEN sets the six enables, PARAM0 to PARAM3
take the word and read it back, every other address of the row discards it (those of the other rows by log 20). The
line is active while the part runs and some cause is active with its enable set. -/
def Obligations.RegisterWritesAndAttention : Prop :=
  (∀ (w : Word) (s : State), s.phase = .running →
    exec (.attnWrite w) s = .next { s with host := { s.host with
      stationCause := s.host.stationCause && !w.getLsbD 4, misuseCause := s.host.misuseCause && !w.getLsbD 5 } } ∧
    (exec (.attnenWrite w) s = .next { s with host := { s.host with attnen := w.extractLsb' 0 6 } } ∧
      State.readRegister { s with host := { s.host with attnen := w.extractLsb' 0 6 } } 0x19#7 = w &&& 0x3F#16) ∧
    (∀ k : Fin 4, exec (.registerWrite (BitVec.ofNat 7 (9 + k.val)) w) s
        = .next { s with host := { s.host with params := s.host.params.set k w } } ∧
      State.readRegister { s with host := { s.host with params := s.host.params.set k w } }
        (BitVec.ofNat 7 (9 + k.val)) = w) ∧
    ∀ a : BitVec 7, ¬ (0x09 ≤ a.toNat ∧ a.toNat ≤ 0x0C) → exec (.registerWrite a w) s = .next s) ∧
  (∀ s : State,
    let enabled (k : Nat) : Prop := s.host.attnen.getLsbD k = true
    (s.attnLine = true ↔ s.phase = .running ∧
      (s.ring.producer ≠ s.ring.consumer ∧ enabled 0 ∨ (∃ c, (s.chan c).state = .faulted) ∧ enabled 1 ∨
        (∃ w, (s.window w).notice.isSome = true) ∧ enabled 2 ∨ s.changes ≠ 0#16 ∧ enabled 3 ∨
        s.host.stationCause = true ∧ enabled 4 ∨ s.host.misuseCause = true ∧ enabled 5)) ∧
    (s.phase = .running → (s.readRegister 0x18#7).getLsbD 15 = s.attnLine))

/-- R171 to R175, R180, R183, section 11.2: what each register reads while the part runs; what a transfer's SDI bits ask
for, and which command a write is; and what a read shifts out on SDO. While R171 states no level for SDO it is a free
value (log 31), of which nothing is said but that SDO is driven. -/
def Obligations.RegistersReadAsTheTableSays : Prop :=
  (∀ s : State, s.phase = .running →
    let b := s.latch.bytes
    let reads (a : BitVec 7) (w : Word) : Prop := s.readRegister a = w
    let stationCode : Nat := match s.station.state with
      | none | some .configFault => 0
      | some .offline => 1
      | some .joining => 2
      | some .online => 3
      | some .leaving => 4
      | some .isolated => 5
    let causeCode : Nat := match s.latch.cause with
      | .powerOn => 1
      | .pin => 2
      | .soft => 3
    reads 0x00#7 0x7A16#16 ∧
    reads 0x01#7 (b.stationCount ++ b.stationNumber) ∧ reads 0x02#7 (b.presenceInterval ++ b.rateAndCap) ∧
    reads 0x03#7 (b.replyTimeout ++ b.silenceMultiplier) ∧ reads 0x04#7 (b.checkByte ++ b.attemptLimit) ∧
    (s.readRegister 0x05#7).toNat = stationCode + 8 * bit s.station.incarnation.isSome
      + 256 * (s.station.incarnation.getD 0#8).toNat ∧
    reads 0x06#7 s.marks.own ∧
    (∀ check, s.latch.check = some check → (s.readRegister 0x07#7).toNat = causeCode + match check with
      | .good => 0
      | .badSum => 16
      | .badField position => 32 + 256 * (position % 256)) ∧
    reads 0x08#7 s.host.cmd ∧ reads 0x0D#7 s.host.result ∧
    (∀ k : Fin 4, reads (BitVec.ofNat 7 (0x09 + k.val)) s.host.params[k]) ∧
    (∀ k : Fin 8, reads (BitVec.ofNat 7 (0x10 + k.val)) s.host.views[k]) ∧
    (s.readRegister 0x18#7).toNat = bit (s.ring.producer ≠ s.ring.consumer)
      + 2 * bit (allChans.any fun c => (s.chan c).state = .faulted)
      + 4 * bit (allWindows.any fun w => (s.window w).notice.isSome) + 8 * bit (s.changes ≠ 0#16)
      + 16 * bit s.host.stationCause + 32 * bit s.host.misuseCause + 32768 * bit s.attnLine ∧
    (s.readRegister 0x19#7).toNat = s.host.attnen.toNat ∧
    reads 0x1A#7 s.ring.producer ∧ reads 0x1B#7 s.ring.consumer ∧
    ∀ a : BitVec 7, a = 0x0E#7 ∨ a = 0x0F#7 ∨ 0x1C ≤ a.toNat → reads a 0#16) ∧
  (∀ (control : Byte) (rest : List Bool),
    let bits := bitsOfByte control ++ rest
    let addr : BitVec 7 := control.extractLsb' 0 7
    (control.getLsbD 7 = false → spiTransfer bits = .read addr) ∧
    (control.getLsbD 7 = true → rest.length < 16 → spiTransfer bits = .discarded) ∧
    (∀ (w : Word) (beyond : List Bool), control.getLsbD 7 = true →
      rest = bitsOfByte (w.extractLsb' 8 8) ++ bitsOfByte (w.extractLsb' 0 8) ++ beyond →
      spiTransfer bits = .write addr w) ∧
    (∀ (s : State) (falls : Nat),
      s.sdo false bits falls = none ∧ (s.sdo true bits falls).isSome = true ∧
      (control.getLsbD 7 = false → 8 ≤ falls → falls < 24 →
        s.sdo true bits falls = some ((s.readRegister addr).getLsbD (23 - falls)))) ∧
    ∀ short : List Bool, short.length < 8 → spiTransfer short = .discarded) ∧
  (∀ (value : Word) (clocks : Nat),
    (shiftedOut value clocks).length = min 16 (clocks - 8) ∧
    ∀ k < 16, k + 8 < clocks → (shiftedOut value clocks)[k]? = some (value.getLsbD (15 - k))) ∧
  ∀ op code : Byte,
    let write (a : BitVec 7) : Instr := rowOfWrite a (op ++ code)
    (code = 0x01#8 → write 0x08#7 = .join op) ∧ (code = 0x02#8 → write 0x08#7 = .leave op) ∧
    (code = 0x03#8 → write 0x08#7 = .clearIsolation op) ∧ (code = 0x04#8 → write 0x08#7 = .softReset op) ∧
    (code = 0x05#8 → write 0x08#7 = .setWindow op) ∧ (code = 0x06#8 → write 0x08#7 = .setRing op) ∧
    (code = 0x07#8 → write 0x08#7 = .start op) ∧ (code = 0x08#8 → write 0x08#7 = .abort op) ∧
    (code = 0x09#8 → write 0x08#7 = .clear op) ∧ (code = 0x0A#8 → write 0x08#7 = .advanceMark op) ∧
    (code = 0x10#8 → write 0x08#7 = .readChannel op) ∧ (code = 0x11#8 → write 0x08#7 = .readPeer op) ∧
    (code = 0x12#8 → write 0x08#7 = .readWindow op) ∧ (code = 0x13#8 → write 0x08#7 = .readWatch op) ∧
    (code = 0x14#8 → write 0x08#7 = .readPeerChanges op) ∧
    (¬ (1 ≤ code.toNat ∧ code.toNat ≤ 0x0A ∨ 0x10 ≤ code.toNat ∧ code.toNat ≤ 0x14) →
      write 0x08#7 = .unknownCommand code op) ∧
    write 0x18#7 = .attnWrite (op ++ code) ∧ write 0x19#7 = .attnenWrite (op ++ code) ∧
    write 0x1B#7 = .consumerWrite (op ++ code) ∧
    ∀ a : BitVec 7, a ≠ 0x08#7 → a ≠ 0x18#7 → a ≠ 0x19#7 → a ≠ 0x1B#7 → write a = .registerWrite a (op ++ code)

/-! ## The line and what is heard (chapter 2) -/

/-- R17 to R23, R34 to R36: what a station makes of the levels of a well-formed message's bytes, as the sender puts them
on the line. After 10 recessive bit times more, one activity has begun and ended; its row is decided by source,
destination and kind, and every field comes back. A message of b bytes takes 10 × b bit times, driven in a transmission
only; read back unchanged it ends, and at the end of the first bit that differs it has clashed. Of two messages started
together, the one that sends recessive where they first differ clashes there, and the other does not. A line that stays
recessive after a clean end makes no row, however the levels go on no activity begins within an abandoned one, and its
end is one of a bad check. -/
def Obligations.MessagesReadBackFromTheLine : Prop :=
  (∀ (own n : Nat) (m : Message), m.wellFormed = true →
    let row : Instr :=
      if m.source.toNat = own then .ownNumberHeard
      else if n ≤ m.source.toNat then .sourceNOrHigherHeard m.source
      else if m.dest.toNat = own ∨ m.dest = 0xFF#8 then m.row
      else .overheardMessage m.dest m.source m.body.kind m.inc
    rowOfLine own n (lineBits m.bytes) = row ∧
    receive own n none (lineBits m.bytes ++ .replicate 10 true) = [.activityBegin, row]) ∧
  (∀ s : State,
    (s.bus.transmit = none → s.txen = false ∧ ∀ n, s.txd n = none) ∧
    ∀ x, s.bus.transmit = some x →
      let sent := lineBits x.message.bytes
      sent.length = 10 * x.message.bytes.length ∧ s.txen = true ∧ (∀ n, s.txd n = sent[n]?) ∧
      s.readback sent = some .transmissionEnd ∧
      ∀ n < sent.length, s.readback (sent.take n) = none ∧
        s.readback (sent.take n ++ [!(sent.getD n true)]) = some .transmissionClash) ∧
  (∀ (a b : List Bool) (n : Nat), n < a.length → n < b.length → a.take n = b.take n → a[n]? = some true →
    b[n]? = some false →
    firstMismatch a ((lineAnd a b).take (n + 1)) = some n ∧ firstMismatch b ((lineAnd a b).take (n + 1)) = none) ∧
  ∀ (s : State) (r : Reception), s.listening = true →
    (∀ p k, s.bus.line = .idle → s.bus.slotRef = .warm p → s.rowsHeard r (.replicate k true) = []) ∧
    (s.bus.line = .abandoned → ∀ levels : List Bool,
      (s.rowsHeard r levels).head?.getD .badCheckActivity = .badCheckActivity ∧
      (s.rowsHeard r (levels ++ .replicate 10 true)).head? = some .badCheckActivity)

/-- R13, R18, R22, R24 to R27, R35, R36: how the line's events move the slot reference; a station that does not listen
observes none of them. A message with the own number as source, whatever its kind, isolates the station and is used for
nothing else. Of an activity in which the station abandoned its own message nothing is heard, and none begins within it:
whatever its end is, it leaves the station cold and nothing else (log 14 says how the model knows its end). -/
def Obligations.LineEventsMoveTheSlotReference : Prop :=
  (∀ s : State,
    (s.listening = true →
      (s.bus.line ≠ .abandoned →
        exec .activityBegin s = .next { s with bus := { s.bus with line := .activity, slotClock := 0 } }) ∧
      exec .badCheckActivity s = .next (coldLine s) ∧
      ∀ source : Byte, s.stationCount ≤ source.toNat → source.toNat ≠ s.own →
        exec (.sourceNOrHigherHeard source) s = .next (coldLine s)) ∧
    (∀ (source : Byte) (p : Station), Hearing s source p → exec (.malformedMessage source) s = .next (heardLine s p)) ∧
    (s.listening = false → exec .activityBegin s = .next s ∧ exec .badCheckActivity s = .next s ∧
      ∀ source : Byte, exec (.sourceNOrHigherHeard source) s = .next s ∧ exec (.malformedMessage source) s = .next s)) ∧
  (∀ s : State, s.listening = true → s.bus.line ≠ .abandoned →
    exec .ownNumberHeard s = .next s.isolate ∧
    ∀ (c : Instr) (source : Byte), heardSource c = some source → source.toNat = s.own → exec c s = .next s.isolate) ∧
  ∀ s : State, s.listening = true → s.bus.line = .abandoned →
    exec .activityBegin s = .next s ∧ exec .ownNumberHeard s = .next (coldLine s) ∧
    (∀ (c : Instr) (source : Byte), heardSource c = some source → exec c s = .next (coldLine s)) ∧
    ∀ dest source kind inc : Byte, dest.toNat ≠ s.own →
      exec (.overheardMessage dest source kind inc) s = .next (coldLine s)

/-- R14, R51, R67, R85, R88, R126, R146, R147, R163, R166: what isolation leaves. Windows, ring configuration and indices,
incarnation, latch, local memory and registers are kept, and the result of a running inbound access is dropped. In a
state whose transaction table is consistent (`TableBooks`), each channel that is not IDLE or FAULTED: FETCHING raises
ISOLATED and is STOPPING; WAITING raises it and is COMPLETING with FAULTED; RUNNING and DRAINING likewise, as soon as
they own no entry; COMPLETING has its chaining cancelled; and the own mark is kept. That WAITING keeps its ending flag
is the model's choice (log 28). Those that enter COMPLETING join the ring wait list, the record in progress standing at
its head, in the order of the retirements that end them; where those that end without one stand among them is the
model's choice (log 16). -/
def Obligations.IsolationTakesTheStationOffTheBus : Prop :=
  (∀ s : State,
    let t := s.isolate
    OffTheBus t ∧ t.host.stationCause = true ∧ t.latch = s.latch ∧ t.station.incarnation = s.station.incarnation ∧
    t.ring.config = s.ring.config ∧ t.ring.producer = s.ring.producer ∧ t.ring.consumer = s.ring.consumer ∧
    t.written = s.written ∧ t.host.views = s.host.views ∧
    (∀ w, t.window w = { s.window w with notice := none }) ∧
    ∀ cur, s.port.current = some cur → t.port.current = some (match cur.access.requester with
      | .inboundWrite _ | .inboundRead _ => { cur with dropped := true }
      | .fetch _ | .load _ | .store _ | .record _ => cur)) ∧
  ∀ s : State, TableBooks s →
    let t := s.isolate
    t.marks.own = s.marks.own ∧
    (∀ c : Chan,
      let ch := s.chan c
      let further (f : FaultRecord) : Nat := if f.further < 255 then f.further + 1 else 255
      let raised : FaultRecord :=
        { code := .isolated, piece := none, peer := none, addr := ch.addr.getD 0
          further := match ch.fault with
            | none => 0
            | some f => further f }
      (ch.state = .idle ∨ ch.state = .faulted → t.chan c = ch) ∧
      (ch.state = .fetching → t.chan c = { ch with fault := some raised, flag := .stopping }) ∧
      (ch.state = .waiting → t.waitOf c = none ∧ ∃ r : Record, t.chan c = { ch with
        fault := some raised, waitTimer := .stopped, state := .completing, pending := some .faulted, recordDue := true
        record := some r } ∧ r.status = .faulted ∧ r.code = some .isolated) ∧
      (ch.state = .completing → t.chan c = { ch with chainCancelled := true }) ∧
      (ch.state = .running ∨ ch.state = .draining →
        (t.chan c).flag = .stopping ∧ ((t.chan c).fault.map fun f => (f.code, f.piece)) = some (.isolated, none) ∧
        ((t.chan c).owned ≠ 0 → (t.chan c).state = .draining) ∧
        ((t.chan c).owned = 0 → (t.chan c).state = .completing ∧ (t.chan c).pending = some .faulted))) ∧
    (s.ring.inProgress ≠ none → t.ring.inProgress = s.ring.inProgress) ∧
    ∃ ended : List Chan,
      t.ring.inProgress.toList ++ t.ring.waitList = s.ring.inProgress.toList ++ s.ring.waitList ++ ended ∧
      (∀ c, c ∈ ended ↔ (s.chan c).state ≠ .completing ∧ (t.chan c).state = .completing) ∧
      ended.Pairwise (ringOrder s ended)

/-! ## Peers (chapter 3) -/

/-- R38, R39, R42, R45: the peer entry after a message other than LEAVE, in each of its cases. With the session unchanged
nothing else changes. A restart is the cleanup with PEER-RESTARTED, then the entry's new contents and the change set,
then the notice RESTARTED to the mark unit (`WaitsAreJudged`). -/
def Obligations.PresenceUpdateFollowsTheEntry : Prop :=
  ∀ (s : State) (p : Station) (inc : Byte) (mark : Option Word) (isJoin : Bool),
    let t := s.presenceUpdate p inc mark isJoin
    let q := s.peer p
    let sameSession := q.state = .present ∧ q.incarnation = some inc ∧ isJoin = false
    let present (u : State) : State := { withPeer u p { u.peer p with
      state := .present, incarnation := some inc, mark, silence := .running s.silenceTimeout } with
        changes := s.changes ||| BitVec.ofNat 16 (2 ^ p.val) }
    (sameSession → t = withPeer s p { q with
      silence := .running s.silenceTimeout, mark := if mark.isSome then mark else q.mark }) ∧
    (¬ sameSession →
      (t.peer p).state = .present ∧ (t.peer p).incarnation = some inc ∧ (t.peer p).mark = mark ∧
      (t.peer p).silence = .running s.silenceTimeout ∧ t.changes = s.changes ||| BitVec.ofNat 16 (2 ^ p.val)) ∧
    (q.state ≠ .present → t = present s) ∧
    (q.state = .present → ¬ sameSession → t = (present (s.cleanup p .peerRestarted)).failWaitsOn p)

/-- R45 to R48, R79, R145, R147: what a peer cleanup leaves for the peer, that its inbound slots stay occupied, that an ASK
or GRANT to it in transmission is recorded as withdrawn, and that its next sequence is kept (an entry given out while
the table is settled may take one, if a credit is held).
The transaction table acts first: the entries to the peer are settled by state, the lowest tag first, each with the
steps that follow it (log 18), until none is left to settle. What waits for a credit, what is queued and what is sent
retires with the reason, or aborted if so marked; what is loading records the reason; what is storing runs on. -/
def Obligations.CleanupClearsThePeer : Prop :=
  (∀ (s : State) (p : Station) (why : FaultCode),
    let t := s.cleanup p why
    let u := State.cleanupEntries p why 64 s
    t.entries = u.entries ∧ t.channels = u.channels ∧ t.ring = u.ring ∧ t.port = u.port ∧
    (t.peer p).held = 0 ∧ (t.peer p).asked = false ∧ (t.peer p).askTimer = .stopped ∧ (t.peer p).served = [] ∧
    t.grantCount p = 0 ∧ (∀ a ∈ t.credit.askList, a.peer ≠ p) ∧
    (∀ c ∈ t.bus.controlQueue, c.isAskTo p = false ∧ c.isGrantTo p = false) ∧
    t.bus.transmit = u.bus.transmit.map (fun x => match x.item with
      | .control c => if c.isAskTo p = true ∨ c.isGrantTo p = true then { x with withdrawn := true } else x
      | .reply _ | .request _ => x) ∧
    (t.peer p).nextSeq = (u.peer p).nextSeq ∧ ((s.peer p).held = 0 → (t.peer p).nextSeq = (s.peer p).nextSeq) ∧
    (∀ i x, t.slot i = some x → x.requester = p → x.stale = true) ∧
    ∀ i, (t.slot i).isSome = (s.slot i).isSome) ∧
  (∀ (s : State) (p : Station) (why : FaultCode) (n : Nat),
    let unsettled (t : Tag) : Prop := ∃ e, s.entry t = some e ∧ e.peer = p ∧
      (e.state = .waitingCredit ∨ e.state = .queued ∨ e.state = .sent ∨ e.state = .loading ∧ e.retireReason = none)
    ((∀ t, ¬ unsettled t) → State.cleanupEntries p why n s = s) ∧
    ∀ t e, s.entry t = some e → unsettled t → (∀ u < t, ¬ unsettled u) →
      State.cleanupEntries p why (n + 1) s = State.cleanupEntries p why n (s.cleanupEntry why t e).settle) ∧
  ∀ (s : State) (t : Tag) (e : Entry) (why : FaultCode),
    let u := s.cleanupEntry why t e
    let q := s.peer e.peer
    let out : PieceOutcome := if e.aborting then .aborted else .failed why
    (e.state = .waitingCredit →
      u = (withPeer s e.peer { q with waitList := q.waitList.filter fun v => v ≠ t }).retire t out) ∧
    (e.state = .queued → e.inTransmission = false → u = State.retire { s with bus := { s.bus with
      requestQueue := s.bus.requestQueue.filter fun v => v ≠ t } } t out) ∧
    (e.state = .queued → e.inTransmission = true → u = State.retire { s with bus := { s.bus with
      transmit := s.bus.transmit.map fun x => if x.item = .request t then { x with withdrawn := true } else x } } t out) ∧
    (e.state = .sent → u = s.retire t out) ∧
    (e.state = .loading → u = s.setEntry t (some { e with retireReason := some why })) ∧
    (e.state = .storing → u = s)

/-- R38 to R41, R44, R45, R153: announcements and overheard messages reach the peer table, and the part then takes its due
steps (log 1, log 17). A LEAVE heard is the cleanup with PEER-LEFT, the expiry of the silence timer the cleanup with
PEER-LOST; then the entry is ABSENT with its reason, it enters the change set, and the mark unit gets the notice
ENTERED-ABSENT, but for a LEAVE that an ABSENT peer only repeats. -/
def Obligations.AnnouncementsAndSilence : Prop :=
  (∀ (s : State) (source : Byte) (p : Station), Hearing s source p →
    let u := heardLine s p
    (∀ (inc : Byte) (mark : Word),
      exec (.presenceHeard source inc mark) s = .next (u.presenceUpdate p inc (some mark) false).settle ∧
      exec (.joinHeard source inc mark) s = .next (u.presenceUpdate p inc (some mark) true).queuePresence.settle ∧
      (let v := u.cleanup p .peerLeft
       let left := { withPeer v p { v.peer p with
         state := .absent .left, incarnation := some inc, mark := some mark, silence := .stopped } with
           changes := s.changes ||| BitVec.ofNat 16 (2 ^ p.val) }
       let repeated := (∃ reason, (s.peer p).state = .absent reason) ∧ (s.peer p).incarnation = some inc ∧
         (s.peer p).mark = some mark
       (repeated → exec (.leaveHeard source inc mark) s = .next left.settle) ∧
       (¬ repeated → exec (.leaveHeard source inc mark) s = .next (left.failWaitsOn p).settle))) ∧
    ∀ dest kind inc : Byte, dest.toNat < 16 → dest ≠ source → dest.toNat ≠ s.own → 4 ≤ kind.toNat → kind.toNat ≤ 9 →
      exec (.overheardMessage dest source kind inc) s = .next (delivered s p inc).settle) ∧
  (∀ (s : State) (p : Station),
    (∀ (source inc : Byte) (mark : Word) (t : State), Hearing s source p →
      exec (.leaveHeard source inc mark) s = .next t →
      (t.peer p).state = .absent .left ∧ (t.peer p).incarnation = some inc ∧ (t.peer p).mark = some mark ∧
      (t.peer p).silence = .stopped ∧ t.changes = s.changes ||| BitVec.ofNat 16 (2 ^ p.val)) ∧
    ∀ ms, (s.peer p).silence = .running ms → ∃ t, exec (.silenceTimerExpiry p) s = .next t ∧
      (let v := s.cleanup p .peerLost
       t = (State.failWaitsOn { withPeer v p { v.peer p with state := .absent .silent, silence := .stopped } with
         changes := s.changes ||| BitVec.ofNat 16 (2 ^ p.val) } p).settle) ∧
      (t.peer p).state = .absent .silent ∧ (t.peer p).incarnation = (s.peer p).incarnation ∧
      (t.peer p).mark = (s.peer p).mark ∧ (t.peer p).silence = .stopped ∧
      t.changes = s.changes ||| BitVec.ofNat 16 (2 ^ p.val))

/-! ## Credits (chapter 4) -/

/-- R61 to R63: an ASK by station state: gathered in JOINING, ignored in LEAVING, and in ONLINE dropped while a GRANT to its
sender waits, else reclaiming the sender's grants and joining the ask list. Granting takes the oldest asker, raises its
grant count by the smallest of F, C minus the count and the wanted count, and queues the GRANT, its echo the recorded
incarnation. The part then takes its due steps (log 1, log 17). -/
def Obligations.AsksAreTakenAndGranted : Prop :=
  (∀ (s : State) (source inc wanted : Byte) (p : Station), Hearing s source p → 1 ≤ wanted.toNat → wanted.toNat ≤ 4 →
    let u := delivered s p inc
    let asker : Asker := { peer := p, wanted := wanted.toNat }
    let joined := if (∃ a ∈ u.credit.askList, a.peer = p)
      then u.credit.askList.map fun a => if a.peer = p then asker else a
      else u.credit.askList ++ [asker]
    let grantWaits := ∃ c ∈ u.bus.controlQueue, c.isGrantTo p = true
    (u.station.state = some .joining → exec (.askHeard source inc wanted) s
      = .next (State.settle { u with credit := { u.credit with askList := joined } })) ∧
    (u.station.state = some .leaving → exec (.askHeard source inc wanted) s = .next u.settle) ∧
    (u.station.state = some .online → grantWaits → exec (.askHeard source inc wanted) s = .next u.settle) ∧
    (u.station.state = some .online → ¬ grantWaits → exec (.askHeard source inc wanted) s
      = .next (State.settle { u.setGrant p 0 with credit := { (u.setGrant p 0).credit with askList := joined } }))) ∧
  ∀ (s : State) (a : Asker) (rest : List Asker) (inc : Byte),
    s.station.state = some .online → s.credit.askList = a :: rest → s.occupied + s.grantSum < 8 →
    (s.peer a.peer).incarnation = some inc →
    let free := 8 - s.occupied - s.grantSum
    let g := min (min free (s.creditCap - s.grantCount a.peer)) a.wanted
    exec .granting s = .next (State.settle { s with
      credit := { s.credit with
        askList := rest, grants := s.credit.grants.set a.peer (s.grantCount a.peer + g) }
      bus := { s.bus with controlQueue := s.bus.controlQueue ++ [.grant a.peer g inc] } })

/-- R58: a GRANT with a stale echo is discarded; one with the own incarnation raises the held credits up to C, ends the
asking and withdraws a waiting ASK. The part then takes its due steps (log 1, log 17). -/
def Obligations.GrantRaisesTheHeldCredits : Prop :=
  ∀ (s : State) (source inc credits echo : Byte) (p : Station), Hearing s source p →
    1 ≤ credits.toNat → credits.toNat ≤ 4 →
    let u := delivered s p inc
    let q := u.peer p
    (u.station.incarnation ≠ some echo → exec (.grantHeard source inc credits echo) s = .next u.settle) ∧
    (u.station.incarnation = some echo → exec (.grantHeard source inc credits echo) s
      = .next (State.settle ((withPeer u p { q with
          held := min u.creditCap (q.held + credits.toNat), asked := false, askTimer := .stopped }).withdrawControl
            (Control.isAskTo p))))

/-- R31, R54, R56, R57, R132, R133: a held credit goes to the entry at the head of the credit wait list, which enters
QUEUED, taking a sequence on its first credit: the next one or the first after it that no other entry to the peer
carries. An ASK is queued when entries wait, no credit is held and asked is no, a waiting ASK to the peer taking the new
wanted count in its place; the ask timer's expiry asks again while entries wait, and ends the asking when none does. The part then takes its due
steps (log 1, log 17). -/
def Obligations.CreditWaitListsAreServed : Prop :=
  (∀ (s : State) (p : Station) (t : Tag) (rest : List Tag) (e : Entry),
    (s.peer p).waitList = t :: rest → 1 ≤ (s.peer p).held → s.entry t = some e → e.state = .waitingCredit → e.peer = p →
    let n := s.takeSeq p
    let q := { s.peer p with held := (s.peer p).held - 1, waitList := rest }
    let queued (q : PeerEntry) (seq : Byte) : State :=
      let u := (withPeer s p q).setEntry t (some { e with state := .queued, inTransmission := false, seq := some seq })
      { u with bus := { u.bus with requestQueue := s.bus.requestQueue ++ [t] } }
    (∀ seq, e.seq = some seq → exec (.creditHanding p) s = .next (queued q seq).settle) ∧
    (e.seq = none → exec (.creditHanding p) s = .next (queued { q with nextSeq := n + 1#8 } n).settle ∧
      (let carriedByAnother (v : Byte) : Prop := ∃ u f, u ≠ t ∧ s.entry u = some f ∧ f.peer = p ∧ f.seq = some v
       ∃ k : Nat, k ≤ 15 ∧ n = (s.peer p).nextSeq + BitVec.ofNat 8 k ∧ ¬ carriedByAnother n ∧
         ∀ j < k, carriedByAnother ((s.peer p).nextSeq + BitVec.ofNat 8 j)))) ∧
  (∀ (s : State) (p : Station),
    let q := s.peer p
    let wanted := min s.creditCap q.waitList.length
    let asked (queue : List Control) : State := State.settle { withPeer s p { q with
        asked := true, askTimer := .running s.latch.bytes.replyTimeout.toNat } with
      bus := { s.bus with controlQueue := queue } }
    let asks (c : Instr) : Prop :=
      ((∀ y ∈ s.bus.controlQueue, y.isAskTo p = false) →
        exec c s = .next (asked (s.bus.controlQueue ++ [.ask p wanted]))) ∧
      ∀ before after n, s.bus.controlQueue = before ++ .ask p n :: after →
        (∀ y ∈ before ++ after, y.isAskTo p = false) → exec c s = .next (asked (before ++ .ask p wanted :: after))
    (q.waitList ≠ [] → q.held = 0 → q.asked = false → asks (.asking p)) ∧
    ∀ ms, q.askTimer = .running ms →
      (q.asked = true → q.waitList ≠ [] → asks (.askTimerExpiry p)) ∧
      (q.waitList = [] → exec (.askTimerExpiry p) s
        = .next (withPeer s p { q with asked := false, askTimer := .stopped }).settle))

/-- R65, R66, R71 to R73: a WRITE or READ that finds no counted credit, or a station not ONLINE, is refused NO-CREDIT from
a free refusal place, and discarded when all four are taken. With a counted credit in ONLINE it spends the credit, takes
the lowest-numbered FREE slot, prunes the served record with its low-water and is checked. The part then takes its due
steps (log 1, log 17). -/
def Obligations.RequestsAreRefusedOrTakeASlot : Prop :=
  (∀ (s : State) (source inc tag seq low window : Byte) (offset : BitVec 24) (p : Station), Hearing s source p →
    let u := delivered s p inc
    let refusal (kind : ReqKind) : QueuedReply :=
      { owner := .refusal, dest := p, kind, tag := Fin.ofNat 16 tag.toNat, seq, echo := inc, status := .noCredit
        payload := [] }
    let refused (kind : ReqKind) : State :=
      if u.credit.refusals < 4 then
        { u with
          credit := { u.credit with refusals := u.credit.refusals + 1 }
          bus := { u.bus with replyQueue := u.bus.replyQueue ++ [refusal kind] } }
      else u
    (u.station.state = some .online → u.grantCount p = 0) → tag.toNat < 16 → window.toNat ≤ 7 →
    offset.toNat < 1048576 →
    (∀ payload : List Byte, 1 ≤ payload.length → payload.length ≤ 64 →
      exec (.writeHeard source inc tag seq low window offset payload) s = .next (refused .write).settle) ∧
    ∀ length : Byte, 1 ≤ length.toNat → length.toNat ≤ 64 →
      exec (.readHeard source inc tag seq low window offset length) s = .next (refused .read).settle) ∧
  ∀ (s : State) (source inc tag seq low window : Byte) (offset : BitVec 24) (p : Station) (i : SlotNo),
    Hearing s source p →
    let u := delivered s p inc
    u.station.state = some .online → 1 ≤ u.grantCount p → u.slot i = none → (∀ j < i, u.slot j ≠ none) →
    tag.toNat < 16 → window.toNat ≤ 7 → offset.toNat < 1048576 →
    let slot (kind : ReqKind) (length : Nat) (buffer : List Byte) : Slot :=
      { state := .checked, requester := p, kind, tag := Fin.ofNat 16 tag.toNat, seq, echo := inc
        window := Fin.ofNat 8 window.toNat, offset := offset.toNat, length, buffer, status := none, stale := false
        behind := none }
    let taken (x : Slot) : State :=
      let v := (u.setGrant p (u.grantCount p - 1)).setSlot i (some x)
      let v := { v with inbound := { v.inbound with arrivals := u.inbound.arrivals ++ [i] } }
      withPeer v p { u.peer p with served := (u.peer p).served.filter fun pair => (pair.seq - low).toNat < 128 }
    (∀ payload : List Byte, 1 ≤ payload.length → payload.length ≤ 64 →
      let x := slot .write payload.length payload
      exec (.writeHeard source inc tag seq low window offset payload) s = .next ((taken x).checkArrival i x).settle) ∧
    ∀ length : Byte, 1 ≤ length.toNat → length.toNat ≤ 64 →
      let x := slot .read length.toNat []
      exec (.readHeard source inc tag seq low window offset length) s = .next ((taken x).checkArrival i x).settle

/-! ## Inbound service (chapter 5) -/

/-- R74 to R77: the arrival checks of a request in slot `i`, in their order. -/
def Obligations.ArrivalChecksDecideInOrder : Prop :=
  ∀ (s : State) (i : SlotNo) (x : Slot), s.slot i = some x →
    let w := s.window x.window
    let served := (s.peer x.requester).served
    let copyAt (j : SlotNo) : Prop := j ≠ i ∧ ∃ y, s.slot j = some y ∧ y.requester = x.requester ∧ y.kind = .write ∧
      y.seq = x.seq ∧ y.echo = x.echo ∧ y.stale = false ∧ (y.state = .waitingLocal ∨ y.state = .accessing)
    let recorded := x.kind = .write ∧ ∃ pair ∈ served, pair.seq = x.seq
    let copied := x.kind = .write ∧ ∃ j, copyAt j
    let denied := w.enabled = false ∨ w.mask.getLsbD x.requester.val = false ∨
      (x.kind = .write ∧ w.rights = .read) ∨ (x.kind = .read ∧ w.rights = .write)
    let t := s.checkArrival i x
    (recorded → ∃ pair ∈ served, pair.seq = x.seq ∧ t = s.replySlot i pair.status) ∧
    (¬ recorded → copied → ∃ j, copyAt j ∧ t = s.setSlot i (some { x with behind := some j })) ∧
    (¬ recorded → ¬ copied → denied → t = (s.recordServed x .refusedAccess).replySlot i .refusedAccess) ∧
    (¬ recorded → ¬ copied → ¬ denied → w.length < x.offset + x.length →
      t = (s.recordServed x .refusedRange).replySlot i .refusedRange) ∧
    (¬ recorded → ¬ copied → ¬ denied → x.offset + x.length ≤ w.length →
      t = (s.setSlot i (some { x with state := .waitingLocal })).queueInbound
        { requester := match x.kind with
            | .write => .inboundWrite i
            | .read => .inboundRead i
          addr := w.base + x.offset, length := x.length
          bytes := match x.kind with
            | .write => x.buffer.take x.length
            | .read => [] })

/-- R78, R79, R82, R86: a slot's reply; the served pair of a WRITE that is not stale; the watch notice of a window after a
WRITE performed DONE in it. -/
def Obligations.SlotsReplyRecordAndNotify : Prop :=
  (∀ (s : State) (i : SlotNo) (x : Slot) (status : ReplyStatus), s.slot i = some x →
    (let u := s.setSlot i (some { x with status := some status, state := .replyQueued, behind := none })
     s.replySlot i status = { u with bus := { u.bus with replyQueue := u.bus.replyQueue ++
      [{ owner := .slot i, dest := x.requester, kind := x.kind, tag := x.tag, seq := x.seq, echo := x.echo, status
         payload := if x.kind = .read ∧ status = .done then x.buffer.take x.length else [] }] } }) ∧
    (let q := s.peer x.requester
     let kept := if 4 ≤ q.served.length then q.served.tail else q.served
     s.recordServed x status = if x.kind = .write ∧ x.stale = false
      then withPeer s x.requester { q with served := kept ++ [{ seq := x.seq, status }] } else s)) ∧
  (∀ (s : State) (x : Slot),
    let w := s.window x.window
    let p := x.requester
    let set (n : Notice) : State := s.setWindowAt x.window { w with notice := some n }
    (∀ status, x.kind = .read ∨ status ≠ .done ∨ w.watch = false → s.notice x status = s) ∧
    (x.kind = .write → w.watch = true →
      (w.notice = none → s.notice x .done = set { firstPeer := p, firstOffset := x.offset, lastPeer := p, count := 1 }) ∧
      ∀ n, w.notice = some n →
        s.notice x .done = set { n with lastPeer := p, count := if n.count < 65535 then n.count + 1 else 65535 }))

/-- R81, R86, R159, R162, R163: the end of an inbound access. Its bytes are in local memory as the outcome says; unless
the result is dropped, the slot takes DONE or LOCAL-ERROR, the pair is recorded, the notice updated, the reply queued
and the waiting copies answered, in that order, and the part then takes its due steps (log 1, log 17). The bytes of a
READ are in the buffer, after an error those of the cycles before the failing one; that a data list shorter than these
stands for zeros beyond it (log 9), and a failing cycle beyond the access for its last one (log 10), is the model's
choice. Which bytes of a WRITE are in local memory then, `MemoryChangesOnlyThroughThePort` says. -/
def Obligations.InboundAccessEndAnswersTheSlot : Prop :=
  (∀ (s : State) (cur : CurrentAccess) (i : SlotNo) (x : Slot) (outcome : AccessEnd),
    s.port.current = some cur →
    cur.access.requester = (match x.kind with
      | .write => .inboundWrite i
      | .read => .inboundRead i) →
    let u := s.applyWrite cur.access outcome
    (cur.dropped = true → exec (.inboundAccessEnd outcome) s = .next (portIdle u).settle) ∧
    (cur.dropped = false → s.slot i = some x →
      let status := if endedOk outcome then .done else .localError
      let y := match x.kind with
        | .write => x
        | .read => { x with buffer := readBuffer cur.access.addr x.length outcome }
      let v := (((u.setSlot i (some y)).recordServed y status).notice y status).replySlot i status
      let waiting := u.inbound.arrivals.filter fun j => match (u.setSlot i (some y)).slot j with
        | some z => z.state = .checked && z.behind = some i
        | none => false
      exec (.inboundAccessEnd outcome) s
        = .next (portIdle (waiting.foldl (fun v j => v.replySlot j status) v)).settle)) ∧
  ∀ (first len : Nat) (data : List Byte), 1 ≤ len →
    (let b := readBuffer first len (.ok data)
     b.length = len ∧ ∀ j < len, b[j]? = some (data.getD j 0#8)) ∧
    ∀ (cycle : Nat) (low high : Bool),
      let b := readBuffer first len (.error cycle low high data)
      let failing := min cycle ((first + len - 1) / 2 - first / 2)
      b.length ≤ len ∧ (∀ j < len, j < b.length ↔ (first + j) / 2 - first / 2 < failing) ∧
      ∀ j < b.length, b[j]? = some (data.getD j 0#8)

/-! ## Transmission (sections 2.4 to 2.6) -/

/-- R26 to R29: each bus slot has one owner among the numbers of a group; a warm station sends at the start of a bus slot
it owns, in the reply window only replies, and a cold one when its guard has run out. Outside these moments, and in a
slot time already passed (log 15), nothing happens. -/
def Obligations.BusSlotsAndColdGuards : Prop :=
  (∀ n last k : Nat, 2 ≤ n → last < n →
    ∃ own, own < n ∧ ownsSlot own last n k = true ∧ ∀ i, i < n → ownsSlot i last n k = true → i = own) ∧
  ∀ s : State, s.own < s.stationCount →
    let n := s.stationCount
    let idle := (s.station.state = some .joining ∨ s.station.state = some .online ∨ s.station.state = some .leaving) ∧
      s.bus.transmit = none ∧ s.bus.line = .idle
    (∀ (last : Station) (k : Nat), s.bus.slotRef = .warm last → last.val < n →
      let p := (s.own + n - last.val - 1) % n
      let owned := k < n ∧ p = k ∨ n ≤ k ∧ k < 2 * n ∧ p + n = k ∨ 2 * n ≤ k ∧ p = (k - 2 * n) % n
      (idle → s.bus.slotClock ≤ k → owned → exec (.busSlotStart k) s
        = .next (State.send { s with bus := { s.bus with slotClock := k + 1 } } (decide (k < n)))) ∧
      (¬ (idle ∧ s.bus.slotClock ≤ k ∧ owned) → exec (.busSlotStart k) s = .next s) ∧
      exec (.coldGuardExpiry k) s = .next s) ∧
    (s.bus.slotRef = .cold → ∀ m : Nat,
      (idle → s.bus.slotClock < m → 2 * n + 2 + s.own ≤ m → exec (.coldGuardExpiry m) s
        = .next (State.send { s with bus := { s.bus with slotClock := m } } false)) ∧
      (¬ (idle ∧ s.bus.slotClock < m ∧ 2 * n + 2 + s.own ≤ m) → exec (.coldGuardExpiry m) s = .next s) ∧
      exec (.busSlotStart m) s = .next s)

/-- R20, R29, R134, R135: what a transmission takes and how it is filled: the head of the reply queue; else, outside the
reply window, of the control queue; else of the request queue. The low-water is the oldest carried sequence, but never
more than 128 behind the next. -/
def Obligations.SendTakesOneMessage : Prop :=
  (∀ (s : State) (only : Bool) (inc : Byte), s.station.incarnation = some inc →
    let send (u : State) (item : Outgoing) (dest : Byte) (body : Body) : State := { u with bus := { u.bus with
      line := .activity
      transmit := some { item, withdrawn := false
                         message := { dest, source := s.latch.bytes.stationNumber, inc, body } } } }
    let number (n : Nat) : Byte := BitVec.ofNat 8 n
    (∀ r rest, s.bus.replyQueue = r :: rest → s.send only = send { s with bus := { s.bus with replyQueue := rest } }
      (.reply r) (number r.dest.val) (match r.kind with
        | .write => .ack (number r.tag.val) r.seq r.echo (number r.status.code)
        | .read => .data (number r.tag.val) r.seq r.echo (number r.status.code) r.payload)) ∧
    (s.bus.replyQueue = [] → only = true → s.send only = s) ∧
    (s.bus.replyQueue = [] → only = false →
      (∀ c rest, s.bus.controlQueue = c :: rest →
        let u := { s with bus := { s.bus with controlQueue := rest } }
        s.send only = match c with
          | .join => send u (.control c) 0xFF#8 (.join s.marks.own)
          | .presence => send u (.control c) 0xFF#8 (.presence s.marks.own)
          | .leave => send u (.control c) 0xFF#8 (.leave s.marks.own)
          | .ask p wanted => send u (.control c) (number p.val) (.ask (number wanted))
          | .grant p credits echo => send u (.control c) (number p.val) (.grant (number credits) echo)) ∧
      (s.bus.controlQueue = [] → s.bus.requestQueue = [] → s.send only = s) ∧
      ∀ t rest e seq, s.bus.controlQueue = [] → s.bus.requestQueue = t :: rest → s.entry t = some e → e.seq = some seq →
        s.send only = send ({ s with bus := { s.bus with requestQueue := rest } }.setEntry t
            (some { e with inTransmission := true })) (.request t) (number e.peer.val) (match e.kind with
          | .write => .write (number t.val) seq (s.lowWater e.peer) (number e.window) (BitVec.ofNat 24 e.offset) e.buffer
          | .read => .read (number t.val) seq (s.lowWater e.peer) (number e.window) (BitVec.ofNat 24 e.offset)
              (number e.length)))) ∧
  ∀ (s : State) (p : Station),
    let next := (s.peer p).nextSeq
    (s.carried p = [] → s.lowWater p = next) ∧
    (s.carried p ≠ [] → ∃ oldest ∈ s.carried p, (∀ q ∈ s.carried p, (next - q).toNat ≤ (next - oldest).toNat) ∧
      s.lowWater p = if (next - oldest).toNat ≤ 128 then oldest else next - 128#8)

/-- R12, R33, R34, R83, R135, R145: a transmission that ends without a mismatch makes the station warm with its own number
and the clash count 0, and is reported to the owner of the message, and the part then takes its due steps (log 1,
log 17). The end of a message that its owner has withdrawn has no effect on any owner: R33 reports it as too late, R145
has a transaction entry ignore it, and that the other owners ignore it too is the model's choice (log 29). -/
def Obligations.TransmissionEndIsReported : Prop :=
  ∀ (s : State) (x : Transmission), s.bus.transmit = some x →
    let u := { s with bus := { s.bus with
      transmit := none, clashCount := 0, slotRef := .warm s.ownStation, line := .idle, slotClock := 0 } }
    let ends (t : State) : Prop := exec .transmissionEnd s = .next t.settle
    (x.withdrawn = true → ends u) ∧
    (x.withdrawn = false →
      (∀ r i, x.item = .reply r → r.owner = .slot i →
        ends { u with inbound :=
          { slots := u.inbound.slots.set i none, arrivals := u.inbound.arrivals.filter fun j => j ≠ i } }) ∧
      (∀ r, x.item = .reply r → r.owner = .refusal →
        ends { u with credit := { u.credit with refusals := u.credit.refusals - 1 } }) ∧
      (∀ c, x.item = .control c → c ≠ .leave → ends u) ∧
      (x.item = .control .leave → ends (entered { u with
        peers := .replicate 16 .cleared, changes := 0#16, credit := .cleared, bus := .cleared
        windows := u.windows.map fun w => { w with notice := none }
        station := { u.station with joinListen := .stopped, presence := .stopped } } .offline)) ∧
      (∀ t e, x.item = .request t → s.entry t = some e → ends (u.setEntry t (some { e with
        state := .sent, inTransmission := false, attempts := e.attempts + 1
        replyTimer := .running s.latch.bytes.replyTimeout.toNat }))) ∧
      (∀ t, x.item = .request t → s.entry t = none → ends u))

/-- R13, R31, R33, R35, R135, R143: a clash makes the station cold and deaf to the rest of the activity and raises the
clash count; the third in a row isolates; otherwise the message returns to the head of its queue, coalesced there with
a waiting one of its kind and peer, unless it was withdrawn; the request of an aborted entry is withdrawn and the entry
retires aborted. A PRESENCE or JOIN that finds a PRESENCE waiting takes it in, and a LEAVE takes the place of either
(of a JOIN by the model's choice, log 12). The part then takes its due steps (log 1, log 17). -/
def Obligations.ClashReturnsTheMessage : Prop :=
  ∀ (s : State) (x : Transmission), s.bus.transmit = some x →
    let u := { s with bus := { s.bus with
      transmit := none, clashCount := s.bus.clashCount + 1, slotRef := .cold, line := .abandoned, slotClock := 0 } }
    let clashes (t : State) : Prop := exec .transmissionClash s = .next t.settle
    let queue := s.bus.controlQueue
    let control (q : List Control) : State := { u with bus := { u.bus with controlQueue := q } }
    (2 ≤ s.bus.clashCount → clashes u.isolate) ∧
    (s.bus.clashCount < 2 → x.withdrawn = true → clashes u) ∧
    (s.bus.clashCount < 2 → x.withdrawn = false →
      (∀ r, x.item = .reply r → clashes { u with bus := { u.bus with replyQueue := r :: s.bus.replyQueue } }) ∧
      (∀ c, x.item = .control c → (∀ y ∈ queue, c.sameGroup y = false) → clashes (control (c :: queue))) ∧
      (∀ p n m before after, x.item = .control (.ask p n) → queue = before ++ .ask p m :: after →
        (∀ y ∈ before ++ after, y.isAskTo p = false) → clashes (control (.ask p m :: (before ++ after)))) ∧
      (∀ before after c y, c = .presence ∨ c = .join → y = .presence ∨ y = .leave → x.item = .control c →
        queue = before ++ y :: after → (∀ z ∈ before ++ after, z.isAnnouncement = false) →
        clashes (control ((if y = .leave then .leave else c) :: (before ++ after)))) ∧
      (∀ t e, x.item = .request t → s.entry t = some e →
        let v := u.setEntry t (some { e with inTransmission := false })
        (e.aborting = false → clashes { v with bus := { v.bus with requestQueue := t :: s.bus.requestQueue } }) ∧
        (e.aborting = true → clashes ((v.returnCredit e.peer).retire t .aborted))))

/-! ## Replies and retries (sections 8.4, 8.5, 8.7) -/

/-- R59, R136 to R139, R144: a reply reaches the transaction table after the peer table; it settles the entry it matches, by
status, kind and aborting mark, and changes nothing if it matches none. The reply timer's expiry retires a marked entry
aborted, retries while attempts remain, and else retires TIMEOUT. The part then takes its due steps (log 1, log 17). -/
def Obligations.RepliesAndTimeoutsSettleEntries : Prop :=
  ((∀ (s : State) (source inc tag seq echo : Byte) (status : ReplyStatus) (p : Station), Hearing s source p →
    tag.toNat < 16 →
    let r (kind : ReqKind) (payload : List Byte) : ReplyHeard :=
      { source := p, kind, tag := Fin.ofNat 16 tag.toNat, seq, echo, status, payload }
    let code : Byte := BitVec.ofNat 8 status.code
    exec (.ackHeard source inc tag seq echo code) s = .next ((delivered s p inc).takeReply (r .write [])).settle ∧
    ∀ payload : List Byte,
      (status = .done → 1 ≤ payload.length ∧ payload.length ≤ 64) → (status ≠ .done → payload = []) →
      exec (.dataHeard source inc tag seq echo code payload) s
        = .next ((delivered s p inc).takeReply (r .read payload)).settle) ∧
  ∀ (s : State) (r : ReplyHeard),
    let good (e : Entry) : Prop := e.peer = r.source ∧ e.seq = some r.seq ∧ s.station.incarnation = some r.echo ∧
      e.kind = r.kind ∧ (r.kind = .read → r.status = .done → r.payload.length = e.length) ∧
      (e.state = .waitingCredit ∨ e.state = .queued ∨ e.state = .sent)
    ((∀ e, s.entry r.tag = some e → ¬ good e) → s.takeReply r = s) ∧
    ∀ e, s.entry r.tag = some e → good e →
      let u := match e.state with
        | .waitingCredit => s.leaveWaitList r.tag e.peer
        | .queued => (s.withdrawRequest r.tag).returnCredit e.peer
        | .loading | .sent | .storing => s
      let stored := u.setEntry r.tag (some { e with state := .storing, replyTimer := .stopped, buffer := r.payload })
      let spent := u.modPeer e.peer fun q => { q with held := 0 }
      (r.status = .done → e.kind = .write → s.takeReply r = u.retire r.tag .done) ∧
      (r.status = .done → e.kind = .read → e.aborting = true → s.takeReply r = u.retire r.tag .aborted) ∧
      (r.status = .done → e.kind = .read → e.aborting = false → s.takeReply r = stored.queueOutbound
        { requester := .store r.tag, addr := e.addr, length := e.length, bytes := r.payload }) ∧
      (r.status = .refusedAccess → s.takeReply r = u.retire r.tag (.failed .refusedAccess)) ∧
      (r.status = .refusedRange → s.takeReply r = u.retire r.tag (.failed .refusedRange)) ∧
      (r.status = .localError → s.takeReply r = u.retire r.tag (.failed .remoteLocal)) ∧
      (r.status = .noCredit → e.aborting = true → s.takeReply r = spent.retire r.tag .aborted) ∧
      (r.status = .noCredit → e.aborting = false → s.takeReply r =
        (spent.setEntry r.tag (some { e with state := .waitingCredit, replyTimer := .stopped })).modPeer e.peer
          fun q => { q with waitList := q.waitList ++ [r.tag] })) ∧
  (∀ (s : State) (t : Tag) (e : Entry) (ms : Nat), s.entry t = some e → e.state = .sent → e.replyTimer = .running ms →
    (e.aborting = true → exec (.replyTimerExpiry t) s = .next (s.retire t .aborted).settle) ∧
    (e.aborting = false → e.attempts < s.attemptLimit → exec (.replyTimerExpiry t) s = .next
      ((s.setEntry t (some { e with state := .waitingCredit, replyTimer := .stopped })).modPeer e.peer
        fun q => { q with waitList := q.waitList ++ [t] }).settle) ∧
    (e.aborting = false → s.attemptLimit ≤ e.attempts → exec (.replyTimerExpiry t) s
      = .next (s.retire t (.failed .timeout)).settle))

/-! ## Pieces and descriptors (chapters 6 to 8) -/

/-- R89 to R95, R98, R99, R101, R102: which descriptor copies are valid. The range test of the four corner pieces decides
for every byte of every piece. -/
def Obligations.DescriptorValidation : Prop :=
  ∀ (own n : Nat) (d : List Byte), d.length = 32 →
    let byte (i : Nat) : Nat := (d.getD i 0#8).toNat
    let word (i : Nat) : Nat := byte i + 256 * byte (i + 1) + 65536 * byte (i + 2) + 16777216 * byte (i + 3)
    let step (i : Nat) : Int := if word i < 0x80000000 then (word i : Int) else (word i : Int) - 0x100000000
    let rows := byte 14 + 256 * byte 15
    let perRow := byte 13 + 1
    let mask := byte 2 + 256 * byte 3
    let at_ (i b first stepAt : Nat) : Int :=
      (word first : Int) + ((i / perRow : Nat) : Int) * step stepAt + ((i % perRow * byte 12 + b : Nat) : Int)
    (descValid own n d = true ↔
      byte 0 ≤ 2 ∧ byte 1 < 32 ∧ ((byte 1 / 2) % 2 = 1 → byte 24 % 32 = 0) ∧
      (byte 0 ≤ 1 → byte 2 < n ∧ byte 2 ≠ own ∧ byte 3 ≤ 7 ∧ 1 ≤ byte 12 ∧ byte 12 ≤ 64 ∧ 1 ≤ rows ∧ rows ≤ 4096 ∧
        -8388608 ≤ step 16 ∧ step 16 ≤ 8388607 ∧ -524288 ≤ step 20 ∧ step 20 ≤ 524287 ∧
        ∀ i < rows * perRow, ∀ b < byte 12,
          0 ≤ at_ i b 4 16 ∧ at_ i b 4 16 ≤ 0xFFFFFF ∧ 0 ≤ at_ i b 8 20 ∧ at_ i b 8 20 ≤ 0xFFFFF) ∧
      (byte 0 = 2 → mask ≠ 0 ∧ mask < 2 ^ n))

/-- R96, R111 to R113, R128, R129: the lowest-numbered FREE entry goes to the channel at the head of the ready list, which
issues its next piece into it; a WRITE loads, a READ waits for a credit; and the part then takes its due steps (log 1,
log 17). The ready list after its test holds the channels that qualify and no others: who qualified before keeps its
place, the new ones follow in increasing channel number. -/
def Obligations.EntryAllocationIssuesAPiece : Prop :=
  (∀ (s : State) (c : Chan) (rest : List Chan) (t : Tag) (d : List Byte),
    s.readyList = c :: rest → s.entry t = none → (∀ u < t, s.entry u ≠ none) → (s.chan c).copy = some d →
    let ch := s.chan c
    let place (first : Nat) (step : Int) : Nat := ((first : Int) + ((ch.next / descPerRow d : Nat) : Int) * step
      + ((ch.next % descPerRow d * descLength d : Nat) : Int)).toNat
    let e : Entry :=
      { state := if descKind d = 0 then .loading else .waitingCredit
        chan := c, piece := ch.next, peer := Fin.ofNat 16 (descPeer d), kind := if descKind d = 0 then .write else .read
        window := descWindow d, offset := place (descOffset d) (descRemoteStep d)
        addr := place (descLocal d) (descLocalStep d), length := descLength d
        seq := none, attempts := 0, replyTimer := .stopped, aborting := false, retireReason := none
        inTransmission := false, buffer := [] }
    let u := ({ s with readyList := rest }.setEntry t (some e)).setChan c { ch with
      next := ch.next + 1, issued := ch.issued + 1, owned := ch.owned + 1
      state := if descPieces d ≤ ch.next + 1 then .draining else ch.state }
    (descKind d = 0 → exec .entryAllocation s = .next ((u.queueOutbound
      { requester := .load t, addr := e.addr, length := e.length, bytes := [] }).retestReady).settle) ∧
    (descKind d ≠ 0 → exec .entryAllocation s = .next ((u.modPeer e.peer
      fun q => { q with waitList := q.waitList ++ [t] }).retestReady).settle)) ∧
  (∀ (s : State) (c : Chan),
    let ch := s.chan c
    let ordered := (ch.desc.getD 1 0#8).getLsbD 3 = true
    s.qualifies c = true ↔ ch.state = .running ∧ ch.flag = .none ∧ ch.next < descPieces ch.desc ∧
      ch.owned < (if ordered then 1 else 4) ∧
      (allTags.countP fun t => ((s.entry t).map (·.peer)) = some (Fin.ofNat 16 (ch.desc.getD 2 0#8).toNat)) < 4) ∧
  ∀ s : State, ∃ kept new, s.retestReady = { s with readyList := kept ++ new } ∧
    kept = s.readyList.filter s.qualifies ∧ new.Pairwise (· < ·) ∧
    ∀ c, c ∈ new ↔ s.qualifies c = true ∧ c ∉ s.readyList

/-- R104, R105, R114 to R116, R147: a retiring entry becomes FREE, and its channel counts the outcome, records a fault and
stops as the code and STOP-ON-FAULT require; the ready list is tested. A RUNNING or DRAINING channel that owns no
entries and has issued every piece or has its ending flag set enters COMPLETING with the status its flag and counters
give, and the part then takes its due steps (log 1, log 17); any other channel does not. -/
def Obligations.OutcomesAreCountedAndEndDescriptors : Prop :=
  (∀ (s : State) (t : Tag) (e : Entry), s.entry t = some e →
    let ch := s.chan e.chan
    let freed (ch : Channel) : State := ((s.setEntry t none).setChan e.chan ch).retestReady
    s.retire t .done = freed { ch with owned := ch.owned - 1, done := ch.done + 1 } ∧
    s.retire t .aborted = freed { ch with owned := ch.owned - 1 } ∧
    ∀ code : FaultCode,
      let peerClass := code = .peerLost ∨ code = .peerRestarted ∨ code = .peerLeft ∨ code = .isolated
      let stops := ch.flag = .none ∧ (peerClass ∨ (ch.desc.getD 1 0#8).getLsbD 2 = true)
      let record : FaultRecord := match ch.fault with
        | none => { code, piece := some e.piece, peer := some e.peer, addr := ch.addr.getD 0, further := 0 }
        | some f => { f with further := if f.further < 255 then f.further + 1 else 255 }
      s.retire t (.failed code) = freed { ch with
        owned := ch.owned - 1, failed := ch.failed + 1, fault := some record
        flag := if stops then .stopping else ch.flag
        state := if stops ∧ ch.state = .running then .draining else ch.state }) ∧
  ∀ (s : State) (c : Chan),
    let ch := s.chan c
    let ends := (ch.state = .running ∨ ch.state = .draining) ∧ ch.owned = 0 ∧
      (descPieces ch.desc ≤ ch.next ∨ ch.flag ≠ .none)
    let status : PendingStatus := match ch.flag with
      | .aborting => .aborted
      | .stopping => .faulted
      | .none => if ch.failed = 0 then .done else .partly
    (ends → exec (.descriptorEnd c) s = .next (s.complete c status).settle) ∧
    (¬ ends → exec (.descriptorEnd c) s = .next s.settle)

/-- R100, R118, R119, R122, R150 to R152, R166, section 10.4: the entry into COMPLETING fixes the record if one is due,
joins the ring wait list and has the record write tested for; without one, and after the record write, the channel
leaves by its status. The record's bytes. An absent copy gives the tag word 0, no chaining and no mark advance.
That an IDLE channel keeps the copy of its last descriptor is the model's choice (log 34). -/
def Obligations.CompletingRecordsThenLeaves : Prop :=
  ∀ (s : State) (c : Chan),
    let ch := s.chan c
    let d := ch.copy.getD []
    let cleared := { ch with pending := none, recordDue := false, record := none, chainCancelled := false }
    let chains := (d.getD 1 0#8).getLsbD 1 = true ∧ ch.chainCancelled = false
    let next := (d.getD 24 0#8).toNat + 256 * (d.getD 25 0#8).toNat + 65536 * (d.getD 26 0#8).toNat
    let marked := if (d.getD 1 0#8).getLsbD 4 = true then (s.setChan c cleared).advanceMark else s.setChan c cleared
    let goOn (u : State) : State :=
      if chains then (u.setChan c { cleared with
          state := .fetching, addr := some next, copy := none, next := 0, issued := 0, done := 0, failed := 0, owned := 0
          flag := .none, fault := none }).queueOutbound
            { requester := .fetch c, addr := next, length := 32, bytes := [] }
      else u.setChan c { cleared with state := .idle }
    (ch.pending = some .done → s.leaveCompleting c = goOn marked) ∧
    (ch.pending = some .partly → s.leaveCompleting c = goOn (s.setChan c cleared)) ∧
    (ch.pending = some .faulted → s.leaveCompleting c = s.setChan c { cleared with state := .faulted }) ∧
    (ch.pending = some .aborted → s.leaveCompleting c = s.setChan c { cleared with state := .idle }) ∧
    ∀ status : PendingStatus,
      let due := status = .faulted ∨ status = .aborted ∨ (d.getD 1 0#8).getLsbD 0 = true
      let r : Record :=
        { chan := c, status, code := ch.fault.map (·.code), done := ch.done, failed := ch.failed, addr := ch.addr.getD 0
          tagWord := [d.getD 28 0#8, d.getD 29 0#8, d.getD 30 0#8, d.getD 31 0#8] }
      (due → s.complete c status =
        (let u := s.setChan c
          { ch with state := .completing, pending := some status, recordDue := true, record := some r }
         State.testRecordWrite { u with ring := { u.ring with waitList := s.ring.waitList ++ [c] } })) ∧
      (¬ due → s.complete c status = State.leaveCompleting
        (s.setChan c { ch with state := .completing, pending := some status, recordDue := false, record := none }) c) ∧
      (r.done ≤ 1048576 → r.failed ≤ 1048576 → r.addr ≤ 0xFFFFE0 →
        r.bytes.length = 16 ∧ r.bytes.take 3 = [BitVec.ofNat 8 c.val, BitVec.ofNat 8 status.code,
          BitVec.ofNat 8 ((r.code.map FaultCode.code).getD 0)] ∧
        natOfBytes ((r.bytes.drop 3).take 3) = r.done ∧ natOfBytes ((r.bytes.drop 6).take 3) = r.failed ∧
        natOfBytes ((r.bytes.drop 9).take 3) = r.addr ∧ r.bytes.drop 12 = r.tagWord)

/-- R109, R110, R117: what a fetch's end does to its channel, by outcome, validity and ending flag; the part then takes
its due steps (log 1, log 17). That a failed fetch and an invalid descriptor leave the ending flag as it stands is the
model's choice (log 28). -/
def Obligations.DescriptorFetchEndDecides : Prop :=
  ∀ (s : State) (cur : CurrentAccess) (c : Chan) (outcome : AccessEnd),
    s.port.current = some cur → cur.access.requester = .fetch c →
    let ch := s.chan c
    let ends (t : State) : Prop := exec (.descriptorFetchEnd outcome) s = .next (portIdle t).settle
    (cur.dropped = true ∨ ch.state ≠ .fetching → ends s) ∧
    (cur.dropped = false → ch.state = .fetching →
      (endedOk outcome = false →
        let failed := { Channel.channelFault ch .localBus none with waitTimer := .stopped }
        (ch.flag ≠ .aborting → ends ((s.setChan c failed).complete c .faulted)) ∧
        (ch.flag = .aborting → ends ((s.setChan c (Channel.channelFault ch .localBus none)).complete c .aborted))) ∧
      ∀ data : List Byte, outcome = .ok data → data.length = 32 →
        let u := s.setChan c { ch with copy := some data }
        let wait := (data.getD 6 0#8).toNat + 256 * (data.getD 7 0#8).toNat
        let valid := descValid s.own s.stationCount data = true
        (ch.flag = .aborting → ends (u.complete c .aborted)) ∧
        (ch.flag = .stopping → ends (u.complete c .faulted)) ∧
        (ch.flag = .none → ¬ valid →
          ends ((u.setChan c { Channel.channelFault { ch with copy := some data } .badDescriptor none with
            waitTimer := .stopped }).complete c .faulted)) ∧
        (ch.flag = .none → valid → (data.getD 0 0#8).toNat ≤ 1 →
          ends (u.setChan c { ch with copy := some data, state := .running }).retestReady) ∧
        (ch.flag = .none → valid → (data.getD 0 0#8).toNat = 2 →
          ends ((u.setChan c { ch with
              copy := some data, state := .waiting
              waitTimer := if wait = 0 then .stopped else .running wait }).setWait c (some
                { mask := data.getD 3 0#8 ++ data.getD 2 0#8, target := data.getD 5 0#8 ++ data.getD 4 0#8 }))))

/-- R120, R131, R141, R159, R162, R163, R166 to R168: the ends of loads, stores and record writes. The bytes written are in
local memory as the outcome says (`MemoryChangesOnlyThroughThePort`); a dropped result reaches nobody. After a record
write the channel takes its step, and then the next record write is tested for. The part then takes its due steps
(log 1, log 17). -/
def Obligations.OutboundAccessEndsAreReported : Prop :=
  ∀ (s : State) (cur : CurrentAccess) (outcome : AccessEnd), s.port.current = some cur →
    let u := s.applyWrite cur.access outcome
    let ok := endedOk outcome = true
    (∀ (t : Tag) (e : Entry), cur.access.requester = .load t →
      let ends (v : State) : Prop := exec (.loadEnd outcome) s = .next (portIdle v).settle
      (cur.dropped = true → ends u) ∧
      (cur.dropped = false → s.entry t = some e → e.state = .loading →
        (∀ why, e.retireReason = some why → e.aborting = false → ends (u.retire t (.failed why))) ∧
        (∀ why, e.retireReason = some why → e.aborting = true → ends (u.retire t .aborted)) ∧
        (e.retireReason = none → ¬ ok → ends (u.retire t (.failed .localBus))) ∧
        (e.retireReason = none → ok → e.aborting = true → ends (u.retire t .aborted)) ∧
        ∀ data, e.retireReason = none → e.aborting = false → outcome = .ok data → data.length = e.length →
          ends ((u.setEntry t (some { e with
            state := .waitingCredit, replyTimer := .stopped, buffer := data })).modPeer e.peer
              fun q => { q with waitList := q.waitList ++ [t] }))) ∧
    (∀ (t : Tag) (e : Entry), cur.access.requester = .store t →
      let ends (v : State) : Prop := exec (.storeEnd outcome) s = .next (portIdle v).settle
      (cur.dropped = true → ends u) ∧
      (cur.dropped = false → s.entry t = some e → e.state = .storing →
        (ok → ends (u.retire t .done)) ∧ (¬ ok → ends (u.retire t (.failed .localBus))))) ∧
    ∀ c : Chan, cur.access.requester = .record c →
      let ends (v : State) : Prop := exec (.recordWriteEnd outcome) s = .next (portIdle v).settle
      let v := { u with ring := { u.ring with inProgress := none } }
      let lost := Channel.channelFault (s.chan c) .ringWrite none
      (cur.dropped = true → ends u) ∧
      (cur.dropped = false → s.ring.inProgress = some c →
        (ok → ends (State.leaveCompleting
          { v with ring := { v.ring with producer := s.ring.producer + 1#16 } } c).testRecordWrite) ∧
        (¬ ok → ends (v.setChan c { lost with
          state := .faulted, pending := none, recordDue := false, record := none
          chainCancelled := false }).testRecordWrite))

/-- R11, R31, R80, R161, R166: the LEAVE is queued once LEAVING has drained (a refusal in the transmit buffer does not hold
it back: the model's choice, log 30), in the place of a waiting PRESENCE (of a JOIN by the model's choice, log 12); the record of the head of the ring wait list is issued when the ring has room and
none is in progress, and not otherwise; the idle port grants the head of the one queue that holds accesses, or of the
side other than the last-granted. The part then takes its due steps (log 1, log 17). -/
def Obligations.PortRingAndDrainSteps : Prop :=
  (∀ s : State, s.station.state = some .leaving → (∀ i, s.slot i = none) → s.bus.replyQueue = [] →
    s.leavePending = false →
    let queued (queue : List Control) : Prop :=
      exec .leaveQueued s = .next (State.settle { s with bus := { s.bus with controlQueue := queue } })
    ((∀ y ∈ s.bus.controlQueue, y.isAnnouncement = false) → queued (s.bus.controlQueue ++ [.leave])) ∧
    ∀ before after y, s.bus.controlQueue = before ++ y :: after → y = .presence ∨ y = .join →
      (∀ z ∈ before ++ after, z.isAnnouncement = false) → queued (before ++ .leave :: after)) ∧
  (∀ (s : State) (c : Chan) (rest : List Chan) (g : RingConfig) (r : Record), s.ring.waitList = c :: rest →
    s.ring.inProgress = none → s.ring.config = some g → (s.ring.producer - s.ring.consumer).toNat < g.size →
    (s.chan c).record = some r →
    let issued : State := { s with
      ring := { s.ring with waitList := rest, inProgress := some c }
      port := { s.port with outQueue := s.port.outQueue ++ [{ requester := .record c
                                                              addr := g.base + 16 * (s.ring.producer.toNat % g.size)
                                                              length := 16, bytes := r.bytes }] } }
    s.testRecordWrite = issued ∧ exec .recordWriteIssue s = .next issued.settle) ∧
  (∀ s : State, (s.ring.waitList = [] ∨ s.ring.inProgress ≠ none ∨ s.ring.config = none ∨
      ∃ g, s.ring.config = some g ∧ g.size ≤ (s.ring.producer - s.ring.consumer).toNat) →
    s.testRecordWrite = s ∧ exec .recordWriteIssue s = .next s.settle) ∧
  ∀ s : State, s.port.current = none →
    (∀ a rest, s.port.outQueue = a :: rest → s.port.inQueue = [] ∨ s.port.lastSide = .inbound →
      exec .accessGrant s = .next (State.settle { s with port := { s.port with
        outQueue := rest, current := some { access := a, dropped := false }, lastSide := .outbound } })) ∧
    ∀ b rest i x, s.port.inQueue = b :: rest → s.port.outQueue = [] ∨ s.port.lastSide = .outbound →
      b.requester = .inboundWrite i ∨ b.requester = .inboundRead i → s.slot i = some x →
      exec .accessGrant s = .next (State.settle (State.setSlot { s with port := { s.port with
        inQueue := rest, current := some { access := b, dropped := false }, lastSide := .inbound } } i
          (some { x with state := .accessing })))

/-! ## Rendezvous (chapter 9) -/

/-- R117, R153 to R156: the evaluation of a WAIT, cases 2 to 4, its reports and their effects, and the expiry of its timer,
upon which the part takes its due steps (log 1, log 17). A WAIT is reported satisfied only when every masked station is
the own station with its mark at or beyond the target, or a PRESENT peer whose reported mark is. The members that one
event settles are judged on one state, leave the wait set together and are reported in increasing channel number; who
is settled by a mark advance among these reports is reported after them. A notice RESTARTED or ENTERED-ABSENT (case 1)
reports every member whose mask names the peer. Satisfied ends DONE; lost raises PEER-LOST with the peer and ends
FAULTED. That the channel keeps its ending flag into COMPLETING is the model's choice (log 28). -/
def Obligations.WaitsAreJudged : Prop :=
  (∀ (s : State) (m : WaitMember),
    let absent (p : Station) : Prop := m.mask.getLsbD p.val = true ∧ p.val ≠ s.own ∧
      ∃ reason, (s.peer p).state = .absent reason
    let reached (p : Station) : Prop :=
      (p.val = s.own ∧ (s.marks.own - m.target).toNat < 32768) ∨
      (p.val ≠ s.own ∧ (s.peer p).state = .present ∧
        ∃ mark, (s.peer p).mark = some mark ∧ (mark - m.target).toNat < 32768)
    (∀ p, s.evaluate m = .lost p ↔ absent p ∧ ∀ q < p, ¬ absent q) ∧
    (s.evaluate m = .satisfied ↔ (∀ p, ¬ absent p) ∧ ∀ p : Station, m.mask.getLsbD p.val = true → reached p)) ∧
  (∀ (s : State) (c : Chan),
    let ch := s.chan c
    let ended (fault : Option FaultRecord) (status : PendingStatus) : State :=
      ((s.setWait c none).setChan c { ch with fault, waitTimer := .stopped }).complete c status
    let raised (code : FaultCode) (peer : Option Station) : Option FaultRecord := some (match ch.fault with
      | none => { code, piece := none, peer, addr := ch.addr.getD 0, further := 0 }
      | some f => { f with further := if f.further < 255 then f.further + 1 else 255 })
    s.takeReport c .satisfied = ended ch.fault .done ∧
    (∀ p, s.takeReport c (.lost p) = ended (raised .peerLost (some p)) .faulted) ∧
    ∀ ms, ch.state = .waiting → ch.waitTimer = .running ms →
      exec (.waitTimerExpiry c) s = .next (ended (raised .waitExpired none) .faulted).settle) ∧
  (∀ s : State,
    (∀ c r, (c, r) ∈ s.waitReports ↔ r ≠ .still ∧ ∃ m, s.waitOf c = some m ∧ s.evaluate m = r) ∧
    s.waitReports.Pairwise (fun x y => x.1 < y.1) ∧
    (s.waitReports = [] → s.judgeWaits = none) ∧
    (s.waitReports ≠ [] →
      s.judgeWaits = some (State.deliverReports 8 s.waitReports (s.leaveWaitSet s.waitReports))) ∧
    ((∀ t, s.absentRetire t = none) → ∀ u, s.judgeWaits = some u → s.ownStep = some u) ∧
    (∀ l, s.leaveWaitSet l = { s with marks := { s.marks with waits := (s.leaveWaitSet l).marks.waits } } ∧
      ∀ c, (s.leaveWaitSet l).waitOf c = if c ∈ l.map (·.1) then none else s.waitOf c) ∧
    ∀ (n : Nat) (c : Chan) (r : WaitReport) (rest : List (Chan × WaitReport)),
      let u := s.takeReport c r
      State.deliverReports n [] s = s ∧
      State.deliverReports (n + 1) ((c, r) :: rest) s
        = State.deliverReports n (rest ++ u.waitReports) (u.leaveWaitSet u.waitReports)) ∧
  ∀ (s : State) (p : Station),
    s.failWaitsOn p = (allChans.filter fun c => match s.waitOf c with
      | some m => m.mask.getLsbD p.val
      | none => false).foldl (fun u c => u.takeReport c (.lost p)) s

/-! ## The whole machine -/

/-- The steps the part takes by itself (log 1, log 17) leave the rest alone: latch, station, windows, host port,
local memory, queue, presence of the peers, served records, slots but for the entry into ACCESSING, indices and
configuration of the ring, the line and the transmit buffer. They only lower held credits and only raise grant counts,
and none is taken when none is due. -/
def Obligations.OwnStepsLeaveTheRestAlone : Prop :=
  ∀ s : State,
    let t := s.settle
    (s.ownStep = none → t = s) ∧
    t.phase = s.phase ∧ t.latch = s.latch ∧ t.station = s.station ∧ t.windows = s.windows ∧ t.changes = s.changes ∧
    t.host = s.host ∧ t.written = s.written ∧ t.pending = s.pending ∧ t.credit.refusals = s.credit.refusals ∧
    t.ring.config = s.ring.config ∧ t.ring.producer = s.ring.producer ∧ t.ring.consumer = s.ring.consumer ∧
    t.bus.slotRef = s.bus.slotRef ∧ t.bus.line = s.bus.line ∧ t.bus.slotClock = s.bus.slotClock ∧
    t.bus.clashCount = s.bus.clashCount ∧ t.bus.replyQueue = s.bus.replyQueue ∧ t.bus.transmit = s.bus.transmit ∧
    t.inbound.arrivals = s.inbound.arrivals ∧
    (∀ p, (t.peer p).state = (s.peer p).state ∧ (t.peer p).incarnation = (s.peer p).incarnation ∧
      (t.peer p).mark = (s.peer p).mark ∧ (t.peer p).silence = (s.peer p).silence ∧
      (t.peer p).served = (s.peer p).served ∧ (t.peer p).held ≤ (s.peer p).held ∧ s.grantCount p ≤ t.grantCount p) ∧
    ∀ i, t.slot i = s.slot i ∨ ∃ x, s.slot i = some x ∧ t.slot i = some { x with state := .accessing }

/-- R52, R60: every step keeps the bound on occupied slots plus grants, and the caps on grants and held credits. -/
def Obligations.EveryStepKeepsTheCreditBooks : Prop :=
  ∀ s t : State, CreditBooks s → step s = .next t → CreditBooks t

/-- R31, R61, R63: every step keeps a peer from standing twice among the ask list and the GRANTs on their way, and two
ASKs to one peer from waiting. -/
def Obligations.EveryStepKeepsTheAskBooks : Prop :=
  ∀ s t : State, CreditBooks s → AskBooks s → step s = .next t → AskBooks t

/-- R133: every step keeps the sequences of the entries to one peer distinct. -/
def Obligations.EveryStepKeepsSequencesDistinct : Prop :=
  ∀ s t : State, SequencesDistinct s → step s = .next t → SequencesDistinct t

/-- R32, R33, R53: every step keeps the credit wait lists and the request queue to entries in their state, each once, and
what is being sent that of a QUEUED entry; so that, with at most 4 entries to one peer, no credit wait list holds more
than 4. -/
def Obligations.EveryStepKeepsTheQueueBooks : Prop :=
  (∀ s t : State, QueueBooks s → step s = .next t → QueueBooks t) ∧
  ∀ s : State, TableBooks s → QueueBooks s → ∀ p, (s.peer p).waitList.length ≤ 4

/-- R104, R111, R113, R128, R154, R166: every step keeps the transaction table and the channels consistent: at most 4 entries
to one peer and to one channel, 1 with ORDERED; owned entries agree with the entries; only channels that qualify in the
ready list. -/
def Obligations.EveryStepKeepsTheTransactionTable : Prop :=
  ∀ s t : State, TableBooks s → step s = .next t → TableBooks t

/-- R66, R78, R86, R105, R165: every step keeps the ring's indices within its size, served records within four pairs, and
the other counts within their ranges. -/
def Obligations.EveryStepKeepsRingAndCounts : Prop :=
  ∀ s t : State, step s = .next t → (RingKept s → RingKept t) ∧ (CountsKept s → CountsKept t)

/-- R5, R80, R81, R85, R141, R158, R159: local memory changes only by the write access in progress, inside its bytes and to
them; and its record keeps its canonical form. When a write access has ended, whether or not its result is dropped, its
bytes are in local memory: all of them, or after an error those of the cycles before the failing one, and of the
failing cycle those the memory took (a failing cycle beyond the access stands for its last: the model's choice,
log 10). That a failed piece of a GET leaves these bytes written, though R97 has it perform nothing at its local end, is
the model's choice (log 33). -/
def Obligations.MemoryChangesOnlyThroughThePort : Prop :=
  (∀ s t : State, step s = .next t →
    (Memory.wf s.written → Memory.wf t.written) ∧
    ∀ a, Memory.read t.written a ≠ Memory.read s.written a →
      ∃ x, writeInProgress s = some x ∧ x.addr ≤ a ∧ a < x.addr + x.bytes.length ∧
        Memory.read t.written a = x.bytes[a - x.addr]?) ∧
  ∀ (c : Instr) (s t : State) (cur : CurrentAccess) (outcome : AccessEnd), s.port.current = some cur →
    endsWrite cur.access.requester outcome c → exec c s = .next t → WrittenBy s (inMemoryAfter outcome) t.written

/-- R7 to R16, section 1.4: which events change the station state, from which state to which, and that every entry into
a station state sets the STATION cause. It holds where the transmitter's invariant does: who transmits is JOINING,
ONLINE or LEAVING, and a LEAVE queued or being sent stands in LEAVING. Every command keeps that invariant. -/
def Obligations.StationStateChangesAsTheTableSays : Prop :=
  ∀ (c : Instr) (s t : State), BusKept s → exec c s = .next t →
    BusKept t ∧
    (t.station.state ≠ s.station.state →
      stateChangeAllowed c s.station.state t.station.state ∧ (t.station.state ≠ none → t.host.stationCause = true))

/-- R2, R4, R8, R49, R68, R69, R71, R164, R165, R172, R174, R176, R182: which commands may change the latch, the windows,
the ring, the incarnation, the host registers, and make an inbound slot occupied. -/
def Obligations.OnlyTheseCommandsChange : Prop :=
  ∀ (c : Instr) (s t : State), exec c s = .next t →
    (t.latch.bytes ≠ s.latch.bytes ∨ t.latch.check ≠ s.latch.check →
      c = .resetEnd ∨ ∃ answers, c = .configurationReadEnd answers) ∧
    (t.latch.cause ≠ s.latch.cause → c = .resetEnd ∨ isReset c = true) ∧
    (∀ w, { t.window w with notice := none } ≠ { s.window w with notice := none } →
      isReset c = true ∨ ∃ op, c = .setWindow op) ∧
    (∀ w n, (t.window w).notice = some n → (s.window w).notice ≠ some n → ∃ outcome, c = .inboundAccessEnd outcome) ∧
    (t.station.incarnation ≠ s.station.incarnation → isReset c = true ∨ ∃ op, c = .join op) ∧
    (t.ring.config ≠ s.ring.config → isReset c = true ∨ ∃ op, c = .setRing op) ∧
    (t.ring.producer ≠ s.ring.producer →
      isReset c = true ∨ (∃ op, c = .setRing op) ∨ ∃ outcome, c = .recordWriteEnd outcome) ∧
    (t.ring.consumer ≠ s.ring.consumer →
      isReset c = true ∨ (∃ op, c = .setRing op) ∨ ∃ v, c = .consumerWrite v) ∧
    (t.host.params ≠ s.host.params → isReset c = true ∨ ∃ a v, c = .registerWrite a v) ∧
    (t.host.attnen ≠ s.host.attnen → isReset c = true ∨ ∃ v, c = .attnenWrite v) ∧
    (t.host.views ≠ s.host.views → isReset c = true ∨ isReadCommand c = true) ∧
    (t.host.cmd ≠ s.host.cmd ∨ t.host.result ≠ s.host.result → isReset c = true ∨ isCommand c = true) ∧
    (∀ i, s.slot i = none → t.slot i ≠ none →
      (∃ source inc tag seq low window offset payload,
        c = .writeHeard source inc tag seq low window offset payload) ∨
      ∃ source inc tag seq low window offset length, c = .readHeard source inc tag seq low window offset length)

/-- The invariants hold right after reset. -/
def Obligations.InvariantsHoldAtReset : Prop :=
  CreditBooks State.reset ∧ AskBooks State.reset ∧ SequencesDistinct State.reset ∧ RingKept State.reset ∧
    CountsKept State.reset ∧ BusKept State.reset ∧ TableBooks State.reset ∧ QueueBooks State.reset ∧
    Memory.wf State.reset.written
end

