-- ==== Sys2Proof/Laws/State.lean ====
section
/-! SUPPORT. One lemma for each field and each named update of the state: the field the update leaves alone reads as
before, the place it writes reads as written. Generated in the order of the updates of Machine/Ops.lean. -/
namespace Sys2Proof.Machine

variable (s : State)

/-! ## setPeer -/

@[simp] theorem State.setPeer_phase (q : Station) (x : PeerEntry) : (s.setPeer q x).phase = s.phase := rfl
@[simp] theorem State.setPeer_latch (q : Station) (x : PeerEntry) : (s.setPeer q x).latch = s.latch := rfl
@[simp] theorem State.setPeer_station (q : Station) (x : PeerEntry) : (s.setPeer q x).station = s.station := rfl
@[simp] theorem State.setPeer_marks (q : Station) (x : PeerEntry) : (s.setPeer q x).marks = s.marks := rfl
@[simp] theorem State.setPeer_bus (q : Station) (x : PeerEntry) : (s.setPeer q x).bus = s.bus := rfl
@[simp] theorem State.setPeer_changes (q : Station) (x : PeerEntry) : (s.setPeer q x).changes = s.changes := rfl
@[simp] theorem State.setPeer_credit (q : Station) (x : PeerEntry) : (s.setPeer q x).credit = s.credit := rfl
@[simp] theorem State.setPeer_windows (q : Station) (x : PeerEntry) : (s.setPeer q x).windows = s.windows := rfl
@[simp] theorem State.setPeer_inbound (q : Station) (x : PeerEntry) : (s.setPeer q x).inbound = s.inbound := rfl
@[simp] theorem State.setPeer_channels (q : Station) (x : PeerEntry) : (s.setPeer q x).channels = s.channels := rfl
@[simp] theorem State.setPeer_readyList (q : Station) (x : PeerEntry) : (s.setPeer q x).readyList = s.readyList := rfl
@[simp] theorem State.setPeer_entries (q : Station) (x : PeerEntry) : (s.setPeer q x).entries = s.entries := rfl
@[simp] theorem State.setPeer_port (q : Station) (x : PeerEntry) : (s.setPeer q x).port = s.port := rfl
@[simp] theorem State.setPeer_ring (q : Station) (x : PeerEntry) : (s.setPeer q x).ring = s.ring := rfl
@[simp] theorem State.setPeer_host (q : Station) (x : PeerEntry) : (s.setPeer q x).host = s.host := rfl
@[simp] theorem State.setPeer_written (q : Station) (x : PeerEntry) : (s.setPeer q x).written = s.written := rfl
@[simp] theorem State.setPeer_pending (q : Station) (x : PeerEntry) : (s.setPeer q x).pending = s.pending := rfl
@[simp] theorem State.setPeer_entry (q : Station) (x : PeerEntry) (t : Tag) : (s.setPeer q x).entry t = s.entry t := rfl
@[simp] theorem State.setPeer_chan (q : Station) (x : PeerEntry) (c : Chan) : (s.setPeer q x).chan c = s.chan c := rfl
@[simp] theorem State.setPeer_slot (q : Station) (x : PeerEntry) (i : SlotNo) : (s.setPeer q x).slot i = s.slot i := rfl
@[simp] theorem State.setPeer_window (q : Station) (x : PeerEntry) (w : WindowNo) : (s.setPeer q x).window w = s.window w := rfl
@[simp] theorem State.setPeer_grantCount (q : Station) (x : PeerEntry) (p : Station) : (s.setPeer q x).grantCount p = s.grantCount p := rfl
@[simp] theorem State.setPeer_waitOf (q : Station) (x : PeerEntry) (c : Chan) : (s.setPeer q x).waitOf c = s.waitOf c := rfl

/-! ## modPeer -/

@[simp] theorem State.modPeer_phase (q : Station) (f : PeerEntry → PeerEntry) : (s.modPeer q f).phase = s.phase := rfl
@[simp] theorem State.modPeer_latch (q : Station) (f : PeerEntry → PeerEntry) : (s.modPeer q f).latch = s.latch := rfl
@[simp] theorem State.modPeer_station (q : Station) (f : PeerEntry → PeerEntry) : (s.modPeer q f).station = s.station := rfl
@[simp] theorem State.modPeer_marks (q : Station) (f : PeerEntry → PeerEntry) : (s.modPeer q f).marks = s.marks := rfl
@[simp] theorem State.modPeer_bus (q : Station) (f : PeerEntry → PeerEntry) : (s.modPeer q f).bus = s.bus := rfl
@[simp] theorem State.modPeer_changes (q : Station) (f : PeerEntry → PeerEntry) : (s.modPeer q f).changes = s.changes := rfl
@[simp] theorem State.modPeer_credit (q : Station) (f : PeerEntry → PeerEntry) : (s.modPeer q f).credit = s.credit := rfl
@[simp] theorem State.modPeer_windows (q : Station) (f : PeerEntry → PeerEntry) : (s.modPeer q f).windows = s.windows := rfl
@[simp] theorem State.modPeer_inbound (q : Station) (f : PeerEntry → PeerEntry) : (s.modPeer q f).inbound = s.inbound := rfl
@[simp] theorem State.modPeer_channels (q : Station) (f : PeerEntry → PeerEntry) : (s.modPeer q f).channels = s.channels := rfl
@[simp] theorem State.modPeer_readyList (q : Station) (f : PeerEntry → PeerEntry) : (s.modPeer q f).readyList = s.readyList := rfl
@[simp] theorem State.modPeer_entries (q : Station) (f : PeerEntry → PeerEntry) : (s.modPeer q f).entries = s.entries := rfl
@[simp] theorem State.modPeer_port (q : Station) (f : PeerEntry → PeerEntry) : (s.modPeer q f).port = s.port := rfl
@[simp] theorem State.modPeer_ring (q : Station) (f : PeerEntry → PeerEntry) : (s.modPeer q f).ring = s.ring := rfl
@[simp] theorem State.modPeer_host (q : Station) (f : PeerEntry → PeerEntry) : (s.modPeer q f).host = s.host := rfl
@[simp] theorem State.modPeer_written (q : Station) (f : PeerEntry → PeerEntry) : (s.modPeer q f).written = s.written := rfl
@[simp] theorem State.modPeer_pending (q : Station) (f : PeerEntry → PeerEntry) : (s.modPeer q f).pending = s.pending := rfl
@[simp] theorem State.modPeer_entry (q : Station) (f : PeerEntry → PeerEntry) (t : Tag) : (s.modPeer q f).entry t = s.entry t := rfl
@[simp] theorem State.modPeer_chan (q : Station) (f : PeerEntry → PeerEntry) (c : Chan) : (s.modPeer q f).chan c = s.chan c := rfl
@[simp] theorem State.modPeer_slot (q : Station) (f : PeerEntry → PeerEntry) (i : SlotNo) : (s.modPeer q f).slot i = s.slot i := rfl
@[simp] theorem State.modPeer_window (q : Station) (f : PeerEntry → PeerEntry) (w : WindowNo) : (s.modPeer q f).window w = s.window w := rfl
@[simp] theorem State.modPeer_grantCount (q : Station) (f : PeerEntry → PeerEntry) (p : Station) : (s.modPeer q f).grantCount p = s.grantCount p := rfl
@[simp] theorem State.modPeer_waitOf (q : Station) (f : PeerEntry → PeerEntry) (c : Chan) : (s.modPeer q f).waitOf c = s.waitOf c := rfl

/-! ## setEntry -/

@[simp] theorem State.setEntry_phase (u : Tag) (x : Option Entry) : (s.setEntry u x).phase = s.phase := rfl
@[simp] theorem State.setEntry_latch (u : Tag) (x : Option Entry) : (s.setEntry u x).latch = s.latch := rfl
@[simp] theorem State.setEntry_station (u : Tag) (x : Option Entry) : (s.setEntry u x).station = s.station := rfl
@[simp] theorem State.setEntry_marks (u : Tag) (x : Option Entry) : (s.setEntry u x).marks = s.marks := rfl
@[simp] theorem State.setEntry_bus (u : Tag) (x : Option Entry) : (s.setEntry u x).bus = s.bus := rfl
@[simp] theorem State.setEntry_peers (u : Tag) (x : Option Entry) : (s.setEntry u x).peers = s.peers := rfl
@[simp] theorem State.setEntry_changes (u : Tag) (x : Option Entry) : (s.setEntry u x).changes = s.changes := rfl
@[simp] theorem State.setEntry_credit (u : Tag) (x : Option Entry) : (s.setEntry u x).credit = s.credit := rfl
@[simp] theorem State.setEntry_windows (u : Tag) (x : Option Entry) : (s.setEntry u x).windows = s.windows := rfl
@[simp] theorem State.setEntry_inbound (u : Tag) (x : Option Entry) : (s.setEntry u x).inbound = s.inbound := rfl
@[simp] theorem State.setEntry_channels (u : Tag) (x : Option Entry) : (s.setEntry u x).channels = s.channels := rfl
@[simp] theorem State.setEntry_readyList (u : Tag) (x : Option Entry) : (s.setEntry u x).readyList = s.readyList := rfl
@[simp] theorem State.setEntry_port (u : Tag) (x : Option Entry) : (s.setEntry u x).port = s.port := rfl
@[simp] theorem State.setEntry_ring (u : Tag) (x : Option Entry) : (s.setEntry u x).ring = s.ring := rfl
@[simp] theorem State.setEntry_host (u : Tag) (x : Option Entry) : (s.setEntry u x).host = s.host := rfl
@[simp] theorem State.setEntry_written (u : Tag) (x : Option Entry) : (s.setEntry u x).written = s.written := rfl
@[simp] theorem State.setEntry_pending (u : Tag) (x : Option Entry) : (s.setEntry u x).pending = s.pending := rfl
@[simp] theorem State.setEntry_peer (u : Tag) (x : Option Entry) (p : Station) : (s.setEntry u x).peer p = s.peer p := rfl
@[simp] theorem State.setEntry_chan (u : Tag) (x : Option Entry) (c : Chan) : (s.setEntry u x).chan c = s.chan c := rfl
@[simp] theorem State.setEntry_slot (u : Tag) (x : Option Entry) (i : SlotNo) : (s.setEntry u x).slot i = s.slot i := rfl
@[simp] theorem State.setEntry_window (u : Tag) (x : Option Entry) (w : WindowNo) : (s.setEntry u x).window w = s.window w := rfl
@[simp] theorem State.setEntry_grantCount (u : Tag) (x : Option Entry) (p : Station) : (s.setEntry u x).grantCount p = s.grantCount p := rfl
@[simp] theorem State.setEntry_waitOf (u : Tag) (x : Option Entry) (c : Chan) : (s.setEntry u x).waitOf c = s.waitOf c := rfl

/-! ## modEntry -/

@[simp] theorem State.modEntry_phase (u : Tag) (f : Entry → Entry) : (s.modEntry u f).phase = s.phase := rfl
@[simp] theorem State.modEntry_latch (u : Tag) (f : Entry → Entry) : (s.modEntry u f).latch = s.latch := rfl
@[simp] theorem State.modEntry_station (u : Tag) (f : Entry → Entry) : (s.modEntry u f).station = s.station := rfl
@[simp] theorem State.modEntry_marks (u : Tag) (f : Entry → Entry) : (s.modEntry u f).marks = s.marks := rfl
@[simp] theorem State.modEntry_bus (u : Tag) (f : Entry → Entry) : (s.modEntry u f).bus = s.bus := rfl
@[simp] theorem State.modEntry_peers (u : Tag) (f : Entry → Entry) : (s.modEntry u f).peers = s.peers := rfl
@[simp] theorem State.modEntry_changes (u : Tag) (f : Entry → Entry) : (s.modEntry u f).changes = s.changes := rfl
@[simp] theorem State.modEntry_credit (u : Tag) (f : Entry → Entry) : (s.modEntry u f).credit = s.credit := rfl
@[simp] theorem State.modEntry_windows (u : Tag) (f : Entry → Entry) : (s.modEntry u f).windows = s.windows := rfl
@[simp] theorem State.modEntry_inbound (u : Tag) (f : Entry → Entry) : (s.modEntry u f).inbound = s.inbound := rfl
@[simp] theorem State.modEntry_channels (u : Tag) (f : Entry → Entry) : (s.modEntry u f).channels = s.channels := rfl
@[simp] theorem State.modEntry_readyList (u : Tag) (f : Entry → Entry) : (s.modEntry u f).readyList = s.readyList := rfl
@[simp] theorem State.modEntry_port (u : Tag) (f : Entry → Entry) : (s.modEntry u f).port = s.port := rfl
@[simp] theorem State.modEntry_ring (u : Tag) (f : Entry → Entry) : (s.modEntry u f).ring = s.ring := rfl
@[simp] theorem State.modEntry_host (u : Tag) (f : Entry → Entry) : (s.modEntry u f).host = s.host := rfl
@[simp] theorem State.modEntry_written (u : Tag) (f : Entry → Entry) : (s.modEntry u f).written = s.written := rfl
@[simp] theorem State.modEntry_pending (u : Tag) (f : Entry → Entry) : (s.modEntry u f).pending = s.pending := rfl
@[simp] theorem State.modEntry_peer (u : Tag) (f : Entry → Entry) (p : Station) : (s.modEntry u f).peer p = s.peer p := rfl
@[simp] theorem State.modEntry_chan (u : Tag) (f : Entry → Entry) (c : Chan) : (s.modEntry u f).chan c = s.chan c := rfl
@[simp] theorem State.modEntry_slot (u : Tag) (f : Entry → Entry) (i : SlotNo) : (s.modEntry u f).slot i = s.slot i := rfl
@[simp] theorem State.modEntry_window (u : Tag) (f : Entry → Entry) (w : WindowNo) : (s.modEntry u f).window w = s.window w := rfl
@[simp] theorem State.modEntry_grantCount (u : Tag) (f : Entry → Entry) (p : Station) : (s.modEntry u f).grantCount p = s.grantCount p := rfl
@[simp] theorem State.modEntry_waitOf (u : Tag) (f : Entry → Entry) (c : Chan) : (s.modEntry u f).waitOf c = s.waitOf c := rfl

/-! ## setChan -/

@[simp] theorem State.setChan_phase (d : Chan) (x : Channel) : (s.setChan d x).phase = s.phase := rfl
@[simp] theorem State.setChan_latch (d : Chan) (x : Channel) : (s.setChan d x).latch = s.latch := rfl
@[simp] theorem State.setChan_station (d : Chan) (x : Channel) : (s.setChan d x).station = s.station := rfl
@[simp] theorem State.setChan_marks (d : Chan) (x : Channel) : (s.setChan d x).marks = s.marks := rfl
@[simp] theorem State.setChan_bus (d : Chan) (x : Channel) : (s.setChan d x).bus = s.bus := rfl
@[simp] theorem State.setChan_peers (d : Chan) (x : Channel) : (s.setChan d x).peers = s.peers := rfl
@[simp] theorem State.setChan_changes (d : Chan) (x : Channel) : (s.setChan d x).changes = s.changes := rfl
@[simp] theorem State.setChan_credit (d : Chan) (x : Channel) : (s.setChan d x).credit = s.credit := rfl
@[simp] theorem State.setChan_windows (d : Chan) (x : Channel) : (s.setChan d x).windows = s.windows := rfl
@[simp] theorem State.setChan_inbound (d : Chan) (x : Channel) : (s.setChan d x).inbound = s.inbound := rfl
@[simp] theorem State.setChan_readyList (d : Chan) (x : Channel) : (s.setChan d x).readyList = s.readyList := rfl
@[simp] theorem State.setChan_entries (d : Chan) (x : Channel) : (s.setChan d x).entries = s.entries := rfl
@[simp] theorem State.setChan_port (d : Chan) (x : Channel) : (s.setChan d x).port = s.port := rfl
@[simp] theorem State.setChan_ring (d : Chan) (x : Channel) : (s.setChan d x).ring = s.ring := rfl
@[simp] theorem State.setChan_host (d : Chan) (x : Channel) : (s.setChan d x).host = s.host := rfl
@[simp] theorem State.setChan_written (d : Chan) (x : Channel) : (s.setChan d x).written = s.written := rfl
@[simp] theorem State.setChan_pending (d : Chan) (x : Channel) : (s.setChan d x).pending = s.pending := rfl
@[simp] theorem State.setChan_peer (d : Chan) (x : Channel) (p : Station) : (s.setChan d x).peer p = s.peer p := rfl
@[simp] theorem State.setChan_entry (d : Chan) (x : Channel) (t : Tag) : (s.setChan d x).entry t = s.entry t := rfl
@[simp] theorem State.setChan_slot (d : Chan) (x : Channel) (i : SlotNo) : (s.setChan d x).slot i = s.slot i := rfl
@[simp] theorem State.setChan_window (d : Chan) (x : Channel) (w : WindowNo) : (s.setChan d x).window w = s.window w := rfl
@[simp] theorem State.setChan_grantCount (d : Chan) (x : Channel) (p : Station) : (s.setChan d x).grantCount p = s.grantCount p := rfl
@[simp] theorem State.setChan_waitOf (d : Chan) (x : Channel) (c : Chan) : (s.setChan d x).waitOf c = s.waitOf c := rfl

/-! ## modChan -/

@[simp] theorem State.modChan_phase (d : Chan) (f : Channel → Channel) : (s.modChan d f).phase = s.phase := rfl
@[simp] theorem State.modChan_latch (d : Chan) (f : Channel → Channel) : (s.modChan d f).latch = s.latch := rfl
@[simp] theorem State.modChan_station (d : Chan) (f : Channel → Channel) : (s.modChan d f).station = s.station := rfl
@[simp] theorem State.modChan_marks (d : Chan) (f : Channel → Channel) : (s.modChan d f).marks = s.marks := rfl
@[simp] theorem State.modChan_bus (d : Chan) (f : Channel → Channel) : (s.modChan d f).bus = s.bus := rfl
@[simp] theorem State.modChan_peers (d : Chan) (f : Channel → Channel) : (s.modChan d f).peers = s.peers := rfl
@[simp] theorem State.modChan_changes (d : Chan) (f : Channel → Channel) : (s.modChan d f).changes = s.changes := rfl
@[simp] theorem State.modChan_credit (d : Chan) (f : Channel → Channel) : (s.modChan d f).credit = s.credit := rfl
@[simp] theorem State.modChan_windows (d : Chan) (f : Channel → Channel) : (s.modChan d f).windows = s.windows := rfl
@[simp] theorem State.modChan_inbound (d : Chan) (f : Channel → Channel) : (s.modChan d f).inbound = s.inbound := rfl
@[simp] theorem State.modChan_readyList (d : Chan) (f : Channel → Channel) : (s.modChan d f).readyList = s.readyList := rfl
@[simp] theorem State.modChan_entries (d : Chan) (f : Channel → Channel) : (s.modChan d f).entries = s.entries := rfl
@[simp] theorem State.modChan_port (d : Chan) (f : Channel → Channel) : (s.modChan d f).port = s.port := rfl
@[simp] theorem State.modChan_ring (d : Chan) (f : Channel → Channel) : (s.modChan d f).ring = s.ring := rfl
@[simp] theorem State.modChan_host (d : Chan) (f : Channel → Channel) : (s.modChan d f).host = s.host := rfl
@[simp] theorem State.modChan_written (d : Chan) (f : Channel → Channel) : (s.modChan d f).written = s.written := rfl
@[simp] theorem State.modChan_pending (d : Chan) (f : Channel → Channel) : (s.modChan d f).pending = s.pending := rfl
@[simp] theorem State.modChan_peer (d : Chan) (f : Channel → Channel) (p : Station) : (s.modChan d f).peer p = s.peer p := rfl
@[simp] theorem State.modChan_entry (d : Chan) (f : Channel → Channel) (t : Tag) : (s.modChan d f).entry t = s.entry t := rfl
@[simp] theorem State.modChan_slot (d : Chan) (f : Channel → Channel) (i : SlotNo) : (s.modChan d f).slot i = s.slot i := rfl
@[simp] theorem State.modChan_window (d : Chan) (f : Channel → Channel) (w : WindowNo) : (s.modChan d f).window w = s.window w := rfl
@[simp] theorem State.modChan_grantCount (d : Chan) (f : Channel → Channel) (p : Station) : (s.modChan d f).grantCount p = s.grantCount p := rfl
@[simp] theorem State.modChan_waitOf (d : Chan) (f : Channel → Channel) (c : Chan) : (s.modChan d f).waitOf c = s.waitOf c := rfl

/-! ## setSlot -/

@[simp] theorem State.setSlot_phase (j : SlotNo) (x : Option Slot) : (s.setSlot j x).phase = s.phase := rfl
@[simp] theorem State.setSlot_latch (j : SlotNo) (x : Option Slot) : (s.setSlot j x).latch = s.latch := rfl
@[simp] theorem State.setSlot_station (j : SlotNo) (x : Option Slot) : (s.setSlot j x).station = s.station := rfl
@[simp] theorem State.setSlot_marks (j : SlotNo) (x : Option Slot) : (s.setSlot j x).marks = s.marks := rfl
@[simp] theorem State.setSlot_bus (j : SlotNo) (x : Option Slot) : (s.setSlot j x).bus = s.bus := rfl
@[simp] theorem State.setSlot_peers (j : SlotNo) (x : Option Slot) : (s.setSlot j x).peers = s.peers := rfl
@[simp] theorem State.setSlot_changes (j : SlotNo) (x : Option Slot) : (s.setSlot j x).changes = s.changes := rfl
@[simp] theorem State.setSlot_credit (j : SlotNo) (x : Option Slot) : (s.setSlot j x).credit = s.credit := rfl
@[simp] theorem State.setSlot_windows (j : SlotNo) (x : Option Slot) : (s.setSlot j x).windows = s.windows := rfl
@[simp] theorem State.setSlot_channels (j : SlotNo) (x : Option Slot) : (s.setSlot j x).channels = s.channels := rfl
@[simp] theorem State.setSlot_readyList (j : SlotNo) (x : Option Slot) : (s.setSlot j x).readyList = s.readyList := rfl
@[simp] theorem State.setSlot_entries (j : SlotNo) (x : Option Slot) : (s.setSlot j x).entries = s.entries := rfl
@[simp] theorem State.setSlot_port (j : SlotNo) (x : Option Slot) : (s.setSlot j x).port = s.port := rfl
@[simp] theorem State.setSlot_ring (j : SlotNo) (x : Option Slot) : (s.setSlot j x).ring = s.ring := rfl
@[simp] theorem State.setSlot_host (j : SlotNo) (x : Option Slot) : (s.setSlot j x).host = s.host := rfl
@[simp] theorem State.setSlot_written (j : SlotNo) (x : Option Slot) : (s.setSlot j x).written = s.written := rfl
@[simp] theorem State.setSlot_pending (j : SlotNo) (x : Option Slot) : (s.setSlot j x).pending = s.pending := rfl
@[simp] theorem State.setSlot_peer (j : SlotNo) (x : Option Slot) (p : Station) : (s.setSlot j x).peer p = s.peer p := rfl
@[simp] theorem State.setSlot_entry (j : SlotNo) (x : Option Slot) (t : Tag) : (s.setSlot j x).entry t = s.entry t := rfl
@[simp] theorem State.setSlot_chan (j : SlotNo) (x : Option Slot) (c : Chan) : (s.setSlot j x).chan c = s.chan c := rfl
@[simp] theorem State.setSlot_window (j : SlotNo) (x : Option Slot) (w : WindowNo) : (s.setSlot j x).window w = s.window w := rfl
@[simp] theorem State.setSlot_grantCount (j : SlotNo) (x : Option Slot) (p : Station) : (s.setSlot j x).grantCount p = s.grantCount p := rfl
@[simp] theorem State.setSlot_waitOf (j : SlotNo) (x : Option Slot) (c : Chan) : (s.setSlot j x).waitOf c = s.waitOf c := rfl

/-! ## modSlot -/

@[simp] theorem State.modSlot_phase (j : SlotNo) (f : Slot → Slot) : (s.modSlot j f).phase = s.phase := rfl
@[simp] theorem State.modSlot_latch (j : SlotNo) (f : Slot → Slot) : (s.modSlot j f).latch = s.latch := rfl
@[simp] theorem State.modSlot_station (j : SlotNo) (f : Slot → Slot) : (s.modSlot j f).station = s.station := rfl
@[simp] theorem State.modSlot_marks (j : SlotNo) (f : Slot → Slot) : (s.modSlot j f).marks = s.marks := rfl
@[simp] theorem State.modSlot_bus (j : SlotNo) (f : Slot → Slot) : (s.modSlot j f).bus = s.bus := rfl
@[simp] theorem State.modSlot_peers (j : SlotNo) (f : Slot → Slot) : (s.modSlot j f).peers = s.peers := rfl
@[simp] theorem State.modSlot_changes (j : SlotNo) (f : Slot → Slot) : (s.modSlot j f).changes = s.changes := rfl
@[simp] theorem State.modSlot_credit (j : SlotNo) (f : Slot → Slot) : (s.modSlot j f).credit = s.credit := rfl
@[simp] theorem State.modSlot_windows (j : SlotNo) (f : Slot → Slot) : (s.modSlot j f).windows = s.windows := rfl
@[simp] theorem State.modSlot_channels (j : SlotNo) (f : Slot → Slot) : (s.modSlot j f).channels = s.channels := rfl
@[simp] theorem State.modSlot_readyList (j : SlotNo) (f : Slot → Slot) : (s.modSlot j f).readyList = s.readyList := rfl
@[simp] theorem State.modSlot_entries (j : SlotNo) (f : Slot → Slot) : (s.modSlot j f).entries = s.entries := rfl
@[simp] theorem State.modSlot_port (j : SlotNo) (f : Slot → Slot) : (s.modSlot j f).port = s.port := rfl
@[simp] theorem State.modSlot_ring (j : SlotNo) (f : Slot → Slot) : (s.modSlot j f).ring = s.ring := rfl
@[simp] theorem State.modSlot_host (j : SlotNo) (f : Slot → Slot) : (s.modSlot j f).host = s.host := rfl
@[simp] theorem State.modSlot_written (j : SlotNo) (f : Slot → Slot) : (s.modSlot j f).written = s.written := rfl
@[simp] theorem State.modSlot_pending (j : SlotNo) (f : Slot → Slot) : (s.modSlot j f).pending = s.pending := rfl
@[simp] theorem State.modSlot_peer (j : SlotNo) (f : Slot → Slot) (p : Station) : (s.modSlot j f).peer p = s.peer p := rfl
@[simp] theorem State.modSlot_entry (j : SlotNo) (f : Slot → Slot) (t : Tag) : (s.modSlot j f).entry t = s.entry t := rfl
@[simp] theorem State.modSlot_chan (j : SlotNo) (f : Slot → Slot) (c : Chan) : (s.modSlot j f).chan c = s.chan c := rfl
@[simp] theorem State.modSlot_window (j : SlotNo) (f : Slot → Slot) (w : WindowNo) : (s.modSlot j f).window w = s.window w := rfl
@[simp] theorem State.modSlot_grantCount (j : SlotNo) (f : Slot → Slot) (p : Station) : (s.modSlot j f).grantCount p = s.grantCount p := rfl
@[simp] theorem State.modSlot_waitOf (j : SlotNo) (f : Slot → Slot) (c : Chan) : (s.modSlot j f).waitOf c = s.waitOf c := rfl

/-! ## setWindowAt -/

@[simp] theorem State.setWindowAt_phase (v : WindowNo) (x : Window) : (s.setWindowAt v x).phase = s.phase := rfl
@[simp] theorem State.setWindowAt_latch (v : WindowNo) (x : Window) : (s.setWindowAt v x).latch = s.latch := rfl
@[simp] theorem State.setWindowAt_station (v : WindowNo) (x : Window) : (s.setWindowAt v x).station = s.station := rfl
@[simp] theorem State.setWindowAt_marks (v : WindowNo) (x : Window) : (s.setWindowAt v x).marks = s.marks := rfl
@[simp] theorem State.setWindowAt_bus (v : WindowNo) (x : Window) : (s.setWindowAt v x).bus = s.bus := rfl
@[simp] theorem State.setWindowAt_peers (v : WindowNo) (x : Window) : (s.setWindowAt v x).peers = s.peers := rfl
@[simp] theorem State.setWindowAt_changes (v : WindowNo) (x : Window) : (s.setWindowAt v x).changes = s.changes := rfl
@[simp] theorem State.setWindowAt_credit (v : WindowNo) (x : Window) : (s.setWindowAt v x).credit = s.credit := rfl
@[simp] theorem State.setWindowAt_inbound (v : WindowNo) (x : Window) : (s.setWindowAt v x).inbound = s.inbound := rfl
@[simp] theorem State.setWindowAt_channels (v : WindowNo) (x : Window) : (s.setWindowAt v x).channels = s.channels := rfl
@[simp] theorem State.setWindowAt_readyList (v : WindowNo) (x : Window) : (s.setWindowAt v x).readyList = s.readyList := rfl
@[simp] theorem State.setWindowAt_entries (v : WindowNo) (x : Window) : (s.setWindowAt v x).entries = s.entries := rfl
@[simp] theorem State.setWindowAt_port (v : WindowNo) (x : Window) : (s.setWindowAt v x).port = s.port := rfl
@[simp] theorem State.setWindowAt_ring (v : WindowNo) (x : Window) : (s.setWindowAt v x).ring = s.ring := rfl
@[simp] theorem State.setWindowAt_host (v : WindowNo) (x : Window) : (s.setWindowAt v x).host = s.host := rfl
@[simp] theorem State.setWindowAt_written (v : WindowNo) (x : Window) : (s.setWindowAt v x).written = s.written := rfl
@[simp] theorem State.setWindowAt_pending (v : WindowNo) (x : Window) : (s.setWindowAt v x).pending = s.pending := rfl
@[simp] theorem State.setWindowAt_peer (v : WindowNo) (x : Window) (p : Station) : (s.setWindowAt v x).peer p = s.peer p := rfl
@[simp] theorem State.setWindowAt_entry (v : WindowNo) (x : Window) (t : Tag) : (s.setWindowAt v x).entry t = s.entry t := rfl
@[simp] theorem State.setWindowAt_chan (v : WindowNo) (x : Window) (c : Chan) : (s.setWindowAt v x).chan c = s.chan c := rfl
@[simp] theorem State.setWindowAt_slot (v : WindowNo) (x : Window) (i : SlotNo) : (s.setWindowAt v x).slot i = s.slot i := rfl
@[simp] theorem State.setWindowAt_grantCount (v : WindowNo) (x : Window) (p : Station) : (s.setWindowAt v x).grantCount p = s.grantCount p := rfl
@[simp] theorem State.setWindowAt_waitOf (v : WindowNo) (x : Window) (c : Chan) : (s.setWindowAt v x).waitOf c = s.waitOf c := rfl

/-! ## setGrant -/

@[simp] theorem State.setGrant_phase (q : Station) (n : Nat) : (s.setGrant q n).phase = s.phase := rfl
@[simp] theorem State.setGrant_latch (q : Station) (n : Nat) : (s.setGrant q n).latch = s.latch := rfl
@[simp] theorem State.setGrant_station (q : Station) (n : Nat) : (s.setGrant q n).station = s.station := rfl
@[simp] theorem State.setGrant_marks (q : Station) (n : Nat) : (s.setGrant q n).marks = s.marks := rfl
@[simp] theorem State.setGrant_bus (q : Station) (n : Nat) : (s.setGrant q n).bus = s.bus := rfl
@[simp] theorem State.setGrant_peers (q : Station) (n : Nat) : (s.setGrant q n).peers = s.peers := rfl
@[simp] theorem State.setGrant_changes (q : Station) (n : Nat) : (s.setGrant q n).changes = s.changes := rfl
@[simp] theorem State.setGrant_windows (q : Station) (n : Nat) : (s.setGrant q n).windows = s.windows := rfl
@[simp] theorem State.setGrant_inbound (q : Station) (n : Nat) : (s.setGrant q n).inbound = s.inbound := rfl
@[simp] theorem State.setGrant_channels (q : Station) (n : Nat) : (s.setGrant q n).channels = s.channels := rfl
@[simp] theorem State.setGrant_readyList (q : Station) (n : Nat) : (s.setGrant q n).readyList = s.readyList := rfl
@[simp] theorem State.setGrant_entries (q : Station) (n : Nat) : (s.setGrant q n).entries = s.entries := rfl
@[simp] theorem State.setGrant_port (q : Station) (n : Nat) : (s.setGrant q n).port = s.port := rfl
@[simp] theorem State.setGrant_ring (q : Station) (n : Nat) : (s.setGrant q n).ring = s.ring := rfl
@[simp] theorem State.setGrant_host (q : Station) (n : Nat) : (s.setGrant q n).host = s.host := rfl
@[simp] theorem State.setGrant_written (q : Station) (n : Nat) : (s.setGrant q n).written = s.written := rfl
@[simp] theorem State.setGrant_pending (q : Station) (n : Nat) : (s.setGrant q n).pending = s.pending := rfl
@[simp] theorem State.setGrant_peer (q : Station) (n : Nat) (p : Station) : (s.setGrant q n).peer p = s.peer p := rfl
@[simp] theorem State.setGrant_entry (q : Station) (n : Nat) (t : Tag) : (s.setGrant q n).entry t = s.entry t := rfl
@[simp] theorem State.setGrant_chan (q : Station) (n : Nat) (c : Chan) : (s.setGrant q n).chan c = s.chan c := rfl
@[simp] theorem State.setGrant_slot (q : Station) (n : Nat) (i : SlotNo) : (s.setGrant q n).slot i = s.slot i := rfl
@[simp] theorem State.setGrant_window (q : Station) (n : Nat) (w : WindowNo) : (s.setGrant q n).window w = s.window w := rfl
@[simp] theorem State.setGrant_waitOf (q : Station) (n : Nat) (c : Chan) : (s.setGrant q n).waitOf c = s.waitOf c := rfl

/-! ## setWait -/

@[simp] theorem State.setWait_phase (d : Chan) (m : Option WaitMember) : (s.setWait d m).phase = s.phase := rfl
@[simp] theorem State.setWait_latch (d : Chan) (m : Option WaitMember) : (s.setWait d m).latch = s.latch := rfl
@[simp] theorem State.setWait_station (d : Chan) (m : Option WaitMember) : (s.setWait d m).station = s.station := rfl
@[simp] theorem State.setWait_bus (d : Chan) (m : Option WaitMember) : (s.setWait d m).bus = s.bus := rfl
@[simp] theorem State.setWait_peers (d : Chan) (m : Option WaitMember) : (s.setWait d m).peers = s.peers := rfl
@[simp] theorem State.setWait_changes (d : Chan) (m : Option WaitMember) : (s.setWait d m).changes = s.changes := rfl
@[simp] theorem State.setWait_credit (d : Chan) (m : Option WaitMember) : (s.setWait d m).credit = s.credit := rfl
@[simp] theorem State.setWait_windows (d : Chan) (m : Option WaitMember) : (s.setWait d m).windows = s.windows := rfl
@[simp] theorem State.setWait_inbound (d : Chan) (m : Option WaitMember) : (s.setWait d m).inbound = s.inbound := rfl
@[simp] theorem State.setWait_channels (d : Chan) (m : Option WaitMember) : (s.setWait d m).channels = s.channels := rfl
@[simp] theorem State.setWait_readyList (d : Chan) (m : Option WaitMember) : (s.setWait d m).readyList = s.readyList := rfl
@[simp] theorem State.setWait_entries (d : Chan) (m : Option WaitMember) : (s.setWait d m).entries = s.entries := rfl
@[simp] theorem State.setWait_port (d : Chan) (m : Option WaitMember) : (s.setWait d m).port = s.port := rfl
@[simp] theorem State.setWait_ring (d : Chan) (m : Option WaitMember) : (s.setWait d m).ring = s.ring := rfl
@[simp] theorem State.setWait_host (d : Chan) (m : Option WaitMember) : (s.setWait d m).host = s.host := rfl
@[simp] theorem State.setWait_written (d : Chan) (m : Option WaitMember) : (s.setWait d m).written = s.written := rfl
@[simp] theorem State.setWait_pending (d : Chan) (m : Option WaitMember) : (s.setWait d m).pending = s.pending := rfl
@[simp] theorem State.setWait_peer (d : Chan) (m : Option WaitMember) (p : Station) : (s.setWait d m).peer p = s.peer p := rfl
@[simp] theorem State.setWait_entry (d : Chan) (m : Option WaitMember) (t : Tag) : (s.setWait d m).entry t = s.entry t := rfl
@[simp] theorem State.setWait_chan (d : Chan) (m : Option WaitMember) (c : Chan) : (s.setWait d m).chan c = s.chan c := rfl
@[simp] theorem State.setWait_slot (d : Chan) (m : Option WaitMember) (i : SlotNo) : (s.setWait d m).slot i = s.slot i := rfl
@[simp] theorem State.setWait_window (d : Chan) (m : Option WaitMember) (w : WindowNo) : (s.setWait d m).window w = s.window w := rfl
@[simp] theorem State.setWait_grantCount (d : Chan) (m : Option WaitMember) (p : Station) : (s.setWait d m).grantCount p = s.grantCount p := rfl

/-! ## enterStation -/

@[simp] theorem State.enterStation_phase (st : StationState) : (s.enterStation st).phase = s.phase := rfl
@[simp] theorem State.enterStation_latch (st : StationState) : (s.enterStation st).latch = s.latch := rfl
@[simp] theorem State.enterStation_marks (st : StationState) : (s.enterStation st).marks = s.marks := rfl
@[simp] theorem State.enterStation_bus (st : StationState) : (s.enterStation st).bus = s.bus := rfl
@[simp] theorem State.enterStation_peers (st : StationState) : (s.enterStation st).peers = s.peers := rfl
@[simp] theorem State.enterStation_changes (st : StationState) : (s.enterStation st).changes = s.changes := rfl
@[simp] theorem State.enterStation_credit (st : StationState) : (s.enterStation st).credit = s.credit := rfl
@[simp] theorem State.enterStation_windows (st : StationState) : (s.enterStation st).windows = s.windows := rfl
@[simp] theorem State.enterStation_inbound (st : StationState) : (s.enterStation st).inbound = s.inbound := rfl
@[simp] theorem State.enterStation_channels (st : StationState) : (s.enterStation st).channels = s.channels := rfl
@[simp] theorem State.enterStation_readyList (st : StationState) : (s.enterStation st).readyList = s.readyList := rfl
@[simp] theorem State.enterStation_entries (st : StationState) : (s.enterStation st).entries = s.entries := rfl
@[simp] theorem State.enterStation_port (st : StationState) : (s.enterStation st).port = s.port := rfl
@[simp] theorem State.enterStation_ring (st : StationState) : (s.enterStation st).ring = s.ring := rfl
@[simp] theorem State.enterStation_written (st : StationState) : (s.enterStation st).written = s.written := rfl
@[simp] theorem State.enterStation_pending (st : StationState) : (s.enterStation st).pending = s.pending := rfl
@[simp] theorem State.enterStation_peer (st : StationState) (p : Station) : (s.enterStation st).peer p = s.peer p := rfl
@[simp] theorem State.enterStation_entry (st : StationState) (t : Tag) : (s.enterStation st).entry t = s.entry t := rfl
@[simp] theorem State.enterStation_chan (st : StationState) (c : Chan) : (s.enterStation st).chan c = s.chan c := rfl
@[simp] theorem State.enterStation_slot (st : StationState) (i : SlotNo) : (s.enterStation st).slot i = s.slot i := rfl
@[simp] theorem State.enterStation_window (st : StationState) (w : WindowNo) : (s.enterStation st).window w = s.window w := rfl
@[simp] theorem State.enterStation_grantCount (st : StationState) (p : Station) : (s.enterStation st).grantCount p = s.grantCount p := rfl
@[simp] theorem State.enterStation_waitOf (st : StationState) (c : Chan) : (s.enterStation st).waitOf c = s.waitOf c := rfl

/-! ## addChange -/

@[simp] theorem State.addChange_phase (q : Station) : (s.addChange q).phase = s.phase := rfl
@[simp] theorem State.addChange_latch (q : Station) : (s.addChange q).latch = s.latch := rfl
@[simp] theorem State.addChange_station (q : Station) : (s.addChange q).station = s.station := rfl
@[simp] theorem State.addChange_marks (q : Station) : (s.addChange q).marks = s.marks := rfl
@[simp] theorem State.addChange_bus (q : Station) : (s.addChange q).bus = s.bus := rfl
@[simp] theorem State.addChange_peers (q : Station) : (s.addChange q).peers = s.peers := rfl
@[simp] theorem State.addChange_credit (q : Station) : (s.addChange q).credit = s.credit := rfl
@[simp] theorem State.addChange_windows (q : Station) : (s.addChange q).windows = s.windows := rfl
@[simp] theorem State.addChange_inbound (q : Station) : (s.addChange q).inbound = s.inbound := rfl
@[simp] theorem State.addChange_channels (q : Station) : (s.addChange q).channels = s.channels := rfl
@[simp] theorem State.addChange_readyList (q : Station) : (s.addChange q).readyList = s.readyList := rfl
@[simp] theorem State.addChange_entries (q : Station) : (s.addChange q).entries = s.entries := rfl
@[simp] theorem State.addChange_port (q : Station) : (s.addChange q).port = s.port := rfl
@[simp] theorem State.addChange_ring (q : Station) : (s.addChange q).ring = s.ring := rfl
@[simp] theorem State.addChange_host (q : Station) : (s.addChange q).host = s.host := rfl
@[simp] theorem State.addChange_written (q : Station) : (s.addChange q).written = s.written := rfl
@[simp] theorem State.addChange_pending (q : Station) : (s.addChange q).pending = s.pending := rfl
@[simp] theorem State.addChange_peer (q : Station) (p : Station) : (s.addChange q).peer p = s.peer p := rfl
@[simp] theorem State.addChange_entry (q : Station) (t : Tag) : (s.addChange q).entry t = s.entry t := rfl
@[simp] theorem State.addChange_chan (q : Station) (c : Chan) : (s.addChange q).chan c = s.chan c := rfl
@[simp] theorem State.addChange_slot (q : Station) (i : SlotNo) : (s.addChange q).slot i = s.slot i := rfl
@[simp] theorem State.addChange_window (q : Station) (w : WindowNo) : (s.addChange q).window w = s.window w := rfl
@[simp] theorem State.addChange_grantCount (q : Station) (p : Station) : (s.addChange q).grantCount p = s.grantCount p := rfl
@[simp] theorem State.addChange_waitOf (q : Station) (c : Chan) : (s.addChange q).waitOf c = s.waitOf c := rfl

/-! ## queueControl -/

@[simp] theorem State.queueControl_phase (m : Control) : (s.queueControl m).phase = s.phase := rfl
@[simp] theorem State.queueControl_latch (m : Control) : (s.queueControl m).latch = s.latch := rfl
@[simp] theorem State.queueControl_station (m : Control) : (s.queueControl m).station = s.station := rfl
@[simp] theorem State.queueControl_marks (m : Control) : (s.queueControl m).marks = s.marks := rfl
@[simp] theorem State.queueControl_peers (m : Control) : (s.queueControl m).peers = s.peers := rfl
@[simp] theorem State.queueControl_changes (m : Control) : (s.queueControl m).changes = s.changes := rfl
@[simp] theorem State.queueControl_credit (m : Control) : (s.queueControl m).credit = s.credit := rfl
@[simp] theorem State.queueControl_windows (m : Control) : (s.queueControl m).windows = s.windows := rfl
@[simp] theorem State.queueControl_inbound (m : Control) : (s.queueControl m).inbound = s.inbound := rfl
@[simp] theorem State.queueControl_channels (m : Control) : (s.queueControl m).channels = s.channels := rfl
@[simp] theorem State.queueControl_readyList (m : Control) : (s.queueControl m).readyList = s.readyList := rfl
@[simp] theorem State.queueControl_entries (m : Control) : (s.queueControl m).entries = s.entries := rfl
@[simp] theorem State.queueControl_port (m : Control) : (s.queueControl m).port = s.port := rfl
@[simp] theorem State.queueControl_ring (m : Control) : (s.queueControl m).ring = s.ring := rfl
@[simp] theorem State.queueControl_host (m : Control) : (s.queueControl m).host = s.host := rfl
@[simp] theorem State.queueControl_written (m : Control) : (s.queueControl m).written = s.written := rfl
@[simp] theorem State.queueControl_pending (m : Control) : (s.queueControl m).pending = s.pending := rfl
@[simp] theorem State.queueControl_peer (m : Control) (p : Station) : (s.queueControl m).peer p = s.peer p := rfl
@[simp] theorem State.queueControl_entry (m : Control) (t : Tag) : (s.queueControl m).entry t = s.entry t := rfl
@[simp] theorem State.queueControl_chan (m : Control) (c : Chan) : (s.queueControl m).chan c = s.chan c := rfl
@[simp] theorem State.queueControl_slot (m : Control) (i : SlotNo) : (s.queueControl m).slot i = s.slot i := rfl
@[simp] theorem State.queueControl_window (m : Control) (w : WindowNo) : (s.queueControl m).window w = s.window w := rfl
@[simp] theorem State.queueControl_grantCount (m : Control) (p : Station) : (s.queueControl m).grantCount p = s.grantCount p := rfl
@[simp] theorem State.queueControl_waitOf (m : Control) (c : Chan) : (s.queueControl m).waitOf c = s.waitOf c := rfl

/-! ## withdrawControl -/

@[simp] theorem State.withdrawControl_phase (f : Control → Bool) : (s.withdrawControl f).phase = s.phase := rfl
@[simp] theorem State.withdrawControl_latch (f : Control → Bool) : (s.withdrawControl f).latch = s.latch := rfl
@[simp] theorem State.withdrawControl_station (f : Control → Bool) : (s.withdrawControl f).station = s.station := rfl
@[simp] theorem State.withdrawControl_marks (f : Control → Bool) : (s.withdrawControl f).marks = s.marks := rfl
@[simp] theorem State.withdrawControl_peers (f : Control → Bool) : (s.withdrawControl f).peers = s.peers := rfl
@[simp] theorem State.withdrawControl_changes (f : Control → Bool) : (s.withdrawControl f).changes = s.changes := rfl
@[simp] theorem State.withdrawControl_credit (f : Control → Bool) : (s.withdrawControl f).credit = s.credit := rfl
@[simp] theorem State.withdrawControl_windows (f : Control → Bool) : (s.withdrawControl f).windows = s.windows := rfl
@[simp] theorem State.withdrawControl_inbound (f : Control → Bool) : (s.withdrawControl f).inbound = s.inbound := rfl
@[simp] theorem State.withdrawControl_channels (f : Control → Bool) : (s.withdrawControl f).channels = s.channels := rfl
@[simp] theorem State.withdrawControl_readyList (f : Control → Bool) : (s.withdrawControl f).readyList = s.readyList := rfl
@[simp] theorem State.withdrawControl_entries (f : Control → Bool) : (s.withdrawControl f).entries = s.entries := rfl
@[simp] theorem State.withdrawControl_port (f : Control → Bool) : (s.withdrawControl f).port = s.port := rfl
@[simp] theorem State.withdrawControl_ring (f : Control → Bool) : (s.withdrawControl f).ring = s.ring := rfl
@[simp] theorem State.withdrawControl_host (f : Control → Bool) : (s.withdrawControl f).host = s.host := rfl
@[simp] theorem State.withdrawControl_written (f : Control → Bool) : (s.withdrawControl f).written = s.written := rfl
@[simp] theorem State.withdrawControl_pending (f : Control → Bool) : (s.withdrawControl f).pending = s.pending := rfl
@[simp] theorem State.withdrawControl_peer (f : Control → Bool) (p : Station) : (s.withdrawControl f).peer p = s.peer p := rfl
@[simp] theorem State.withdrawControl_entry (f : Control → Bool) (t : Tag) : (s.withdrawControl f).entry t = s.entry t := rfl
@[simp] theorem State.withdrawControl_chan (f : Control → Bool) (c : Chan) : (s.withdrawControl f).chan c = s.chan c := rfl
@[simp] theorem State.withdrawControl_slot (f : Control → Bool) (i : SlotNo) : (s.withdrawControl f).slot i = s.slot i := rfl
@[simp] theorem State.withdrawControl_window (f : Control → Bool) (w : WindowNo) : (s.withdrawControl f).window w = s.window w := rfl
@[simp] theorem State.withdrawControl_grantCount (f : Control → Bool) (p : Station) : (s.withdrawControl f).grantCount p = s.grantCount p := rfl
@[simp] theorem State.withdrawControl_waitOf (f : Control → Bool) (c : Chan) : (s.withdrawControl f).waitOf c = s.waitOf c := rfl

/-! ## queueReply -/

@[simp] theorem State.queueReply_phase (r : QueuedReply) : (s.queueReply r).phase = s.phase := rfl
@[simp] theorem State.queueReply_latch (r : QueuedReply) : (s.queueReply r).latch = s.latch := rfl
@[simp] theorem State.queueReply_station (r : QueuedReply) : (s.queueReply r).station = s.station := rfl
@[simp] theorem State.queueReply_marks (r : QueuedReply) : (s.queueReply r).marks = s.marks := rfl
@[simp] theorem State.queueReply_peers (r : QueuedReply) : (s.queueReply r).peers = s.peers := rfl
@[simp] theorem State.queueReply_changes (r : QueuedReply) : (s.queueReply r).changes = s.changes := rfl
@[simp] theorem State.queueReply_credit (r : QueuedReply) : (s.queueReply r).credit = s.credit := rfl
@[simp] theorem State.queueReply_windows (r : QueuedReply) : (s.queueReply r).windows = s.windows := rfl
@[simp] theorem State.queueReply_inbound (r : QueuedReply) : (s.queueReply r).inbound = s.inbound := rfl
@[simp] theorem State.queueReply_channels (r : QueuedReply) : (s.queueReply r).channels = s.channels := rfl
@[simp] theorem State.queueReply_readyList (r : QueuedReply) : (s.queueReply r).readyList = s.readyList := rfl
@[simp] theorem State.queueReply_entries (r : QueuedReply) : (s.queueReply r).entries = s.entries := rfl
@[simp] theorem State.queueReply_port (r : QueuedReply) : (s.queueReply r).port = s.port := rfl
@[simp] theorem State.queueReply_ring (r : QueuedReply) : (s.queueReply r).ring = s.ring := rfl
@[simp] theorem State.queueReply_host (r : QueuedReply) : (s.queueReply r).host = s.host := rfl
@[simp] theorem State.queueReply_written (r : QueuedReply) : (s.queueReply r).written = s.written := rfl
@[simp] theorem State.queueReply_pending (r : QueuedReply) : (s.queueReply r).pending = s.pending := rfl
@[simp] theorem State.queueReply_peer (r : QueuedReply) (p : Station) : (s.queueReply r).peer p = s.peer p := rfl
@[simp] theorem State.queueReply_entry (r : QueuedReply) (t : Tag) : (s.queueReply r).entry t = s.entry t := rfl
@[simp] theorem State.queueReply_chan (r : QueuedReply) (c : Chan) : (s.queueReply r).chan c = s.chan c := rfl
@[simp] theorem State.queueReply_slot (r : QueuedReply) (i : SlotNo) : (s.queueReply r).slot i = s.slot i := rfl
@[simp] theorem State.queueReply_window (r : QueuedReply) (w : WindowNo) : (s.queueReply r).window w = s.window w := rfl
@[simp] theorem State.queueReply_grantCount (r : QueuedReply) (p : Station) : (s.queueReply r).grantCount p = s.grantCount p := rfl
@[simp] theorem State.queueReply_waitOf (r : QueuedReply) (c : Chan) : (s.queueReply r).waitOf c = s.waitOf c := rfl

/-! ## queueRequest -/

@[simp] theorem State.queueRequest_phase (u : Tag) : (s.queueRequest u).phase = s.phase := rfl
@[simp] theorem State.queueRequest_latch (u : Tag) : (s.queueRequest u).latch = s.latch := rfl
@[simp] theorem State.queueRequest_station (u : Tag) : (s.queueRequest u).station = s.station := rfl
@[simp] theorem State.queueRequest_marks (u : Tag) : (s.queueRequest u).marks = s.marks := rfl
@[simp] theorem State.queueRequest_peers (u : Tag) : (s.queueRequest u).peers = s.peers := rfl
@[simp] theorem State.queueRequest_changes (u : Tag) : (s.queueRequest u).changes = s.changes := rfl
@[simp] theorem State.queueRequest_credit (u : Tag) : (s.queueRequest u).credit = s.credit := rfl
@[simp] theorem State.queueRequest_windows (u : Tag) : (s.queueRequest u).windows = s.windows := rfl
@[simp] theorem State.queueRequest_inbound (u : Tag) : (s.queueRequest u).inbound = s.inbound := rfl
@[simp] theorem State.queueRequest_channels (u : Tag) : (s.queueRequest u).channels = s.channels := rfl
@[simp] theorem State.queueRequest_readyList (u : Tag) : (s.queueRequest u).readyList = s.readyList := rfl
@[simp] theorem State.queueRequest_entries (u : Tag) : (s.queueRequest u).entries = s.entries := rfl
@[simp] theorem State.queueRequest_port (u : Tag) : (s.queueRequest u).port = s.port := rfl
@[simp] theorem State.queueRequest_ring (u : Tag) : (s.queueRequest u).ring = s.ring := rfl
@[simp] theorem State.queueRequest_host (u : Tag) : (s.queueRequest u).host = s.host := rfl
@[simp] theorem State.queueRequest_written (u : Tag) : (s.queueRequest u).written = s.written := rfl
@[simp] theorem State.queueRequest_pending (u : Tag) : (s.queueRequest u).pending = s.pending := rfl
@[simp] theorem State.queueRequest_peer (u : Tag) (p : Station) : (s.queueRequest u).peer p = s.peer p := rfl
@[simp] theorem State.queueRequest_entry (u : Tag) (t : Tag) : (s.queueRequest u).entry t = s.entry t := rfl
@[simp] theorem State.queueRequest_chan (u : Tag) (c : Chan) : (s.queueRequest u).chan c = s.chan c := rfl
@[simp] theorem State.queueRequest_slot (u : Tag) (i : SlotNo) : (s.queueRequest u).slot i = s.slot i := rfl
@[simp] theorem State.queueRequest_window (u : Tag) (w : WindowNo) : (s.queueRequest u).window w = s.window w := rfl
@[simp] theorem State.queueRequest_grantCount (u : Tag) (p : Station) : (s.queueRequest u).grantCount p = s.grantCount p := rfl
@[simp] theorem State.queueRequest_waitOf (u : Tag) (c : Chan) : (s.queueRequest u).waitOf c = s.waitOf c := rfl

/-! ## withdrawRequest -/

@[simp] theorem State.withdrawRequest_phase (u : Tag) : (s.withdrawRequest u).phase = s.phase := rfl
@[simp] theorem State.withdrawRequest_latch (u : Tag) : (s.withdrawRequest u).latch = s.latch := rfl
@[simp] theorem State.withdrawRequest_station (u : Tag) : (s.withdrawRequest u).station = s.station := rfl
@[simp] theorem State.withdrawRequest_marks (u : Tag) : (s.withdrawRequest u).marks = s.marks := rfl
@[simp] theorem State.withdrawRequest_peers (u : Tag) : (s.withdrawRequest u).peers = s.peers := rfl
@[simp] theorem State.withdrawRequest_changes (u : Tag) : (s.withdrawRequest u).changes = s.changes := rfl
@[simp] theorem State.withdrawRequest_credit (u : Tag) : (s.withdrawRequest u).credit = s.credit := rfl
@[simp] theorem State.withdrawRequest_windows (u : Tag) : (s.withdrawRequest u).windows = s.windows := rfl
@[simp] theorem State.withdrawRequest_inbound (u : Tag) : (s.withdrawRequest u).inbound = s.inbound := rfl
@[simp] theorem State.withdrawRequest_channels (u : Tag) : (s.withdrawRequest u).channels = s.channels := rfl
@[simp] theorem State.withdrawRequest_readyList (u : Tag) : (s.withdrawRequest u).readyList = s.readyList := rfl
@[simp] theorem State.withdrawRequest_entries (u : Tag) : (s.withdrawRequest u).entries = s.entries := rfl
@[simp] theorem State.withdrawRequest_port (u : Tag) : (s.withdrawRequest u).port = s.port := rfl
@[simp] theorem State.withdrawRequest_ring (u : Tag) : (s.withdrawRequest u).ring = s.ring := rfl
@[simp] theorem State.withdrawRequest_host (u : Tag) : (s.withdrawRequest u).host = s.host := rfl
@[simp] theorem State.withdrawRequest_written (u : Tag) : (s.withdrawRequest u).written = s.written := rfl
@[simp] theorem State.withdrawRequest_pending (u : Tag) : (s.withdrawRequest u).pending = s.pending := rfl
@[simp] theorem State.withdrawRequest_peer (u : Tag) (p : Station) : (s.withdrawRequest u).peer p = s.peer p := rfl
@[simp] theorem State.withdrawRequest_entry (u : Tag) (t : Tag) : (s.withdrawRequest u).entry t = s.entry t := rfl
@[simp] theorem State.withdrawRequest_chan (u : Tag) (c : Chan) : (s.withdrawRequest u).chan c = s.chan c := rfl
@[simp] theorem State.withdrawRequest_slot (u : Tag) (i : SlotNo) : (s.withdrawRequest u).slot i = s.slot i := rfl
@[simp] theorem State.withdrawRequest_window (u : Tag) (w : WindowNo) : (s.withdrawRequest u).window w = s.window w := rfl
@[simp] theorem State.withdrawRequest_grantCount (u : Tag) (p : Station) : (s.withdrawRequest u).grantCount p = s.grantCount p := rfl
@[simp] theorem State.withdrawRequest_waitOf (u : Tag) (c : Chan) : (s.withdrawRequest u).waitOf c = s.waitOf c := rfl

/-! ## withdrawSending -/

@[simp] theorem State.withdrawSending_phase (u : Tag) : (s.withdrawSending u).phase = s.phase := rfl
@[simp] theorem State.withdrawSending_latch (u : Tag) : (s.withdrawSending u).latch = s.latch := rfl
@[simp] theorem State.withdrawSending_station (u : Tag) : (s.withdrawSending u).station = s.station := rfl
@[simp] theorem State.withdrawSending_marks (u : Tag) : (s.withdrawSending u).marks = s.marks := rfl
@[simp] theorem State.withdrawSending_peers (u : Tag) : (s.withdrawSending u).peers = s.peers := rfl
@[simp] theorem State.withdrawSending_changes (u : Tag) : (s.withdrawSending u).changes = s.changes := rfl
@[simp] theorem State.withdrawSending_credit (u : Tag) : (s.withdrawSending u).credit = s.credit := rfl
@[simp] theorem State.withdrawSending_windows (u : Tag) : (s.withdrawSending u).windows = s.windows := rfl
@[simp] theorem State.withdrawSending_inbound (u : Tag) : (s.withdrawSending u).inbound = s.inbound := rfl
@[simp] theorem State.withdrawSending_channels (u : Tag) : (s.withdrawSending u).channels = s.channels := rfl
@[simp] theorem State.withdrawSending_readyList (u : Tag) : (s.withdrawSending u).readyList = s.readyList := rfl
@[simp] theorem State.withdrawSending_entries (u : Tag) : (s.withdrawSending u).entries = s.entries := rfl
@[simp] theorem State.withdrawSending_port (u : Tag) : (s.withdrawSending u).port = s.port := rfl
@[simp] theorem State.withdrawSending_ring (u : Tag) : (s.withdrawSending u).ring = s.ring := rfl
@[simp] theorem State.withdrawSending_host (u : Tag) : (s.withdrawSending u).host = s.host := rfl
@[simp] theorem State.withdrawSending_written (u : Tag) : (s.withdrawSending u).written = s.written := rfl
@[simp] theorem State.withdrawSending_pending (u : Tag) : (s.withdrawSending u).pending = s.pending := rfl
@[simp] theorem State.withdrawSending_peer (u : Tag) (p : Station) : (s.withdrawSending u).peer p = s.peer p := rfl
@[simp] theorem State.withdrawSending_entry (u : Tag) (t : Tag) : (s.withdrawSending u).entry t = s.entry t := rfl
@[simp] theorem State.withdrawSending_chan (u : Tag) (c : Chan) : (s.withdrawSending u).chan c = s.chan c := rfl
@[simp] theorem State.withdrawSending_slot (u : Tag) (i : SlotNo) : (s.withdrawSending u).slot i = s.slot i := rfl
@[simp] theorem State.withdrawSending_window (u : Tag) (w : WindowNo) : (s.withdrawSending u).window w = s.window w := rfl
@[simp] theorem State.withdrawSending_grantCount (u : Tag) (p : Station) : (s.withdrawSending u).grantCount p = s.grantCount p := rfl
@[simp] theorem State.withdrawSending_waitOf (u : Tag) (c : Chan) : (s.withdrawSending u).waitOf c = s.waitOf c := rfl

/-! ## queueOutbound -/

@[simp] theorem State.queueOutbound_phase (a : Access) : (s.queueOutbound a).phase = s.phase := rfl
@[simp] theorem State.queueOutbound_latch (a : Access) : (s.queueOutbound a).latch = s.latch := rfl
@[simp] theorem State.queueOutbound_station (a : Access) : (s.queueOutbound a).station = s.station := rfl
@[simp] theorem State.queueOutbound_marks (a : Access) : (s.queueOutbound a).marks = s.marks := rfl
@[simp] theorem State.queueOutbound_bus (a : Access) : (s.queueOutbound a).bus = s.bus := rfl
@[simp] theorem State.queueOutbound_peers (a : Access) : (s.queueOutbound a).peers = s.peers := rfl
@[simp] theorem State.queueOutbound_changes (a : Access) : (s.queueOutbound a).changes = s.changes := rfl
@[simp] theorem State.queueOutbound_credit (a : Access) : (s.queueOutbound a).credit = s.credit := rfl
@[simp] theorem State.queueOutbound_windows (a : Access) : (s.queueOutbound a).windows = s.windows := rfl
@[simp] theorem State.queueOutbound_inbound (a : Access) : (s.queueOutbound a).inbound = s.inbound := rfl
@[simp] theorem State.queueOutbound_channels (a : Access) : (s.queueOutbound a).channels = s.channels := rfl
@[simp] theorem State.queueOutbound_readyList (a : Access) : (s.queueOutbound a).readyList = s.readyList := rfl
@[simp] theorem State.queueOutbound_entries (a : Access) : (s.queueOutbound a).entries = s.entries := rfl
@[simp] theorem State.queueOutbound_ring (a : Access) : (s.queueOutbound a).ring = s.ring := rfl
@[simp] theorem State.queueOutbound_host (a : Access) : (s.queueOutbound a).host = s.host := rfl
@[simp] theorem State.queueOutbound_written (a : Access) : (s.queueOutbound a).written = s.written := rfl
@[simp] theorem State.queueOutbound_pending (a : Access) : (s.queueOutbound a).pending = s.pending := rfl
@[simp] theorem State.queueOutbound_peer (a : Access) (p : Station) : (s.queueOutbound a).peer p = s.peer p := rfl
@[simp] theorem State.queueOutbound_entry (a : Access) (t : Tag) : (s.queueOutbound a).entry t = s.entry t := rfl
@[simp] theorem State.queueOutbound_chan (a : Access) (c : Chan) : (s.queueOutbound a).chan c = s.chan c := rfl
@[simp] theorem State.queueOutbound_slot (a : Access) (i : SlotNo) : (s.queueOutbound a).slot i = s.slot i := rfl
@[simp] theorem State.queueOutbound_window (a : Access) (w : WindowNo) : (s.queueOutbound a).window w = s.window w := rfl
@[simp] theorem State.queueOutbound_grantCount (a : Access) (p : Station) : (s.queueOutbound a).grantCount p = s.grantCount p := rfl
@[simp] theorem State.queueOutbound_waitOf (a : Access) (c : Chan) : (s.queueOutbound a).waitOf c = s.waitOf c := rfl

/-! ## queueInbound -/

@[simp] theorem State.queueInbound_phase (a : Access) : (s.queueInbound a).phase = s.phase := rfl
@[simp] theorem State.queueInbound_latch (a : Access) : (s.queueInbound a).latch = s.latch := rfl
@[simp] theorem State.queueInbound_station (a : Access) : (s.queueInbound a).station = s.station := rfl
@[simp] theorem State.queueInbound_marks (a : Access) : (s.queueInbound a).marks = s.marks := rfl
@[simp] theorem State.queueInbound_bus (a : Access) : (s.queueInbound a).bus = s.bus := rfl
@[simp] theorem State.queueInbound_peers (a : Access) : (s.queueInbound a).peers = s.peers := rfl
@[simp] theorem State.queueInbound_changes (a : Access) : (s.queueInbound a).changes = s.changes := rfl
@[simp] theorem State.queueInbound_credit (a : Access) : (s.queueInbound a).credit = s.credit := rfl
@[simp] theorem State.queueInbound_windows (a : Access) : (s.queueInbound a).windows = s.windows := rfl
@[simp] theorem State.queueInbound_inbound (a : Access) : (s.queueInbound a).inbound = s.inbound := rfl
@[simp] theorem State.queueInbound_channels (a : Access) : (s.queueInbound a).channels = s.channels := rfl
@[simp] theorem State.queueInbound_readyList (a : Access) : (s.queueInbound a).readyList = s.readyList := rfl
@[simp] theorem State.queueInbound_entries (a : Access) : (s.queueInbound a).entries = s.entries := rfl
@[simp] theorem State.queueInbound_ring (a : Access) : (s.queueInbound a).ring = s.ring := rfl
@[simp] theorem State.queueInbound_host (a : Access) : (s.queueInbound a).host = s.host := rfl
@[simp] theorem State.queueInbound_written (a : Access) : (s.queueInbound a).written = s.written := rfl
@[simp] theorem State.queueInbound_pending (a : Access) : (s.queueInbound a).pending = s.pending := rfl
@[simp] theorem State.queueInbound_peer (a : Access) (p : Station) : (s.queueInbound a).peer p = s.peer p := rfl
@[simp] theorem State.queueInbound_entry (a : Access) (t : Tag) : (s.queueInbound a).entry t = s.entry t := rfl
@[simp] theorem State.queueInbound_chan (a : Access) (c : Chan) : (s.queueInbound a).chan c = s.chan c := rfl
@[simp] theorem State.queueInbound_slot (a : Access) (i : SlotNo) : (s.queueInbound a).slot i = s.slot i := rfl
@[simp] theorem State.queueInbound_window (a : Access) (w : WindowNo) : (s.queueInbound a).window w = s.window w := rfl
@[simp] theorem State.queueInbound_grantCount (a : Access) (p : Station) : (s.queueInbound a).grantCount p = s.grantCount p := rfl
@[simp] theorem State.queueInbound_waitOf (a : Access) (c : Chan) : (s.queueInbound a).waitOf c = s.waitOf c := rfl

/-! ## setViews -/

@[simp] theorem State.setViews_phase (v : Vector Word 8) : (s.setViews v).phase = s.phase := rfl
@[simp] theorem State.setViews_latch (v : Vector Word 8) : (s.setViews v).latch = s.latch := rfl
@[simp] theorem State.setViews_station (v : Vector Word 8) : (s.setViews v).station = s.station := rfl
@[simp] theorem State.setViews_marks (v : Vector Word 8) : (s.setViews v).marks = s.marks := rfl
@[simp] theorem State.setViews_bus (v : Vector Word 8) : (s.setViews v).bus = s.bus := rfl
@[simp] theorem State.setViews_peers (v : Vector Word 8) : (s.setViews v).peers = s.peers := rfl
@[simp] theorem State.setViews_changes (v : Vector Word 8) : (s.setViews v).changes = s.changes := rfl
@[simp] theorem State.setViews_credit (v : Vector Word 8) : (s.setViews v).credit = s.credit := rfl
@[simp] theorem State.setViews_windows (v : Vector Word 8) : (s.setViews v).windows = s.windows := rfl
@[simp] theorem State.setViews_inbound (v : Vector Word 8) : (s.setViews v).inbound = s.inbound := rfl
@[simp] theorem State.setViews_channels (v : Vector Word 8) : (s.setViews v).channels = s.channels := rfl
@[simp] theorem State.setViews_readyList (v : Vector Word 8) : (s.setViews v).readyList = s.readyList := rfl
@[simp] theorem State.setViews_entries (v : Vector Word 8) : (s.setViews v).entries = s.entries := rfl
@[simp] theorem State.setViews_port (v : Vector Word 8) : (s.setViews v).port = s.port := rfl
@[simp] theorem State.setViews_ring (v : Vector Word 8) : (s.setViews v).ring = s.ring := rfl
@[simp] theorem State.setViews_written (v : Vector Word 8) : (s.setViews v).written = s.written := rfl
@[simp] theorem State.setViews_pending (v : Vector Word 8) : (s.setViews v).pending = s.pending := rfl
@[simp] theorem State.setViews_peer (v : Vector Word 8) (p : Station) : (s.setViews v).peer p = s.peer p := rfl
@[simp] theorem State.setViews_entry (v : Vector Word 8) (t : Tag) : (s.setViews v).entry t = s.entry t := rfl
@[simp] theorem State.setViews_chan (v : Vector Word 8) (c : Chan) : (s.setViews v).chan c = s.chan c := rfl
@[simp] theorem State.setViews_slot (v : Vector Word 8) (i : SlotNo) : (s.setViews v).slot i = s.slot i := rfl
@[simp] theorem State.setViews_window (v : Vector Word 8) (w : WindowNo) : (s.setViews v).window w = s.window w := rfl
@[simp] theorem State.setViews_grantCount (v : Vector Word 8) (p : Station) : (s.setViews v).grantCount p = s.grantCount p := rfl
@[simp] theorem State.setViews_waitOf (v : Vector Word 8) (c : Chan) : (s.setViews v).waitOf c = s.waitOf c := rfl

/-! ## answer -/

@[simp] theorem State.answer_phase (code : Byte) (r : ResultCode) : (s.answer code r).phase = s.phase := rfl
@[simp] theorem State.answer_latch (code : Byte) (r : ResultCode) : (s.answer code r).latch = s.latch := rfl
@[simp] theorem State.answer_station (code : Byte) (r : ResultCode) : (s.answer code r).station = s.station := rfl
@[simp] theorem State.answer_marks (code : Byte) (r : ResultCode) : (s.answer code r).marks = s.marks := rfl
@[simp] theorem State.answer_bus (code : Byte) (r : ResultCode) : (s.answer code r).bus = s.bus := rfl
@[simp] theorem State.answer_peers (code : Byte) (r : ResultCode) : (s.answer code r).peers = s.peers := rfl
@[simp] theorem State.answer_changes (code : Byte) (r : ResultCode) : (s.answer code r).changes = s.changes := rfl
@[simp] theorem State.answer_credit (code : Byte) (r : ResultCode) : (s.answer code r).credit = s.credit := rfl
@[simp] theorem State.answer_windows (code : Byte) (r : ResultCode) : (s.answer code r).windows = s.windows := rfl
@[simp] theorem State.answer_inbound (code : Byte) (r : ResultCode) : (s.answer code r).inbound = s.inbound := rfl
@[simp] theorem State.answer_channels (code : Byte) (r : ResultCode) : (s.answer code r).channels = s.channels := rfl
@[simp] theorem State.answer_readyList (code : Byte) (r : ResultCode) : (s.answer code r).readyList = s.readyList := rfl
@[simp] theorem State.answer_entries (code : Byte) (r : ResultCode) : (s.answer code r).entries = s.entries := rfl
@[simp] theorem State.answer_port (code : Byte) (r : ResultCode) : (s.answer code r).port = s.port := rfl
@[simp] theorem State.answer_ring (code : Byte) (r : ResultCode) : (s.answer code r).ring = s.ring := rfl
@[simp] theorem State.answer_written (code : Byte) (r : ResultCode) : (s.answer code r).written = s.written := rfl
@[simp] theorem State.answer_pending (code : Byte) (r : ResultCode) : (s.answer code r).pending = s.pending := rfl
@[simp] theorem State.answer_peer (code : Byte) (r : ResultCode) (p : Station) : (s.answer code r).peer p = s.peer p := rfl
@[simp] theorem State.answer_entry (code : Byte) (r : ResultCode) (t : Tag) : (s.answer code r).entry t = s.entry t := rfl
@[simp] theorem State.answer_chan (code : Byte) (r : ResultCode) (c : Chan) : (s.answer code r).chan c = s.chan c := rfl
@[simp] theorem State.answer_slot (code : Byte) (r : ResultCode) (i : SlotNo) : (s.answer code r).slot i = s.slot i := rfl
@[simp] theorem State.answer_window (code : Byte) (r : ResultCode) (w : WindowNo) : (s.answer code r).window w = s.window w := rfl
@[simp] theorem State.answer_grantCount (code : Byte) (r : ResultCode) (p : Station) : (s.answer code r).grantCount p = s.grantCount p := rfl
@[simp] theorem State.answer_waitOf (code : Byte) (r : ResultCode) (c : Chan) : (s.answer code r).waitOf c = s.waitOf c := rfl

/-! ## countTo -/

@[simp] theorem State.countTo_phase (n : Nat) : (s.countTo n).phase = s.phase := rfl
@[simp] theorem State.countTo_latch (n : Nat) : (s.countTo n).latch = s.latch := rfl
@[simp] theorem State.countTo_station (n : Nat) : (s.countTo n).station = s.station := rfl
@[simp] theorem State.countTo_marks (n : Nat) : (s.countTo n).marks = s.marks := rfl
@[simp] theorem State.countTo_peers (n : Nat) : (s.countTo n).peers = s.peers := rfl
@[simp] theorem State.countTo_changes (n : Nat) : (s.countTo n).changes = s.changes := rfl
@[simp] theorem State.countTo_credit (n : Nat) : (s.countTo n).credit = s.credit := rfl
@[simp] theorem State.countTo_windows (n : Nat) : (s.countTo n).windows = s.windows := rfl
@[simp] theorem State.countTo_inbound (n : Nat) : (s.countTo n).inbound = s.inbound := rfl
@[simp] theorem State.countTo_channels (n : Nat) : (s.countTo n).channels = s.channels := rfl
@[simp] theorem State.countTo_readyList (n : Nat) : (s.countTo n).readyList = s.readyList := rfl
@[simp] theorem State.countTo_entries (n : Nat) : (s.countTo n).entries = s.entries := rfl
@[simp] theorem State.countTo_port (n : Nat) : (s.countTo n).port = s.port := rfl
@[simp] theorem State.countTo_ring (n : Nat) : (s.countTo n).ring = s.ring := rfl
@[simp] theorem State.countTo_host (n : Nat) : (s.countTo n).host = s.host := rfl
@[simp] theorem State.countTo_written (n : Nat) : (s.countTo n).written = s.written := rfl
@[simp] theorem State.countTo_pending (n : Nat) : (s.countTo n).pending = s.pending := rfl
@[simp] theorem State.countTo_peer (n : Nat) (p : Station) : (s.countTo n).peer p = s.peer p := rfl
@[simp] theorem State.countTo_entry (n : Nat) (t : Tag) : (s.countTo n).entry t = s.entry t := rfl
@[simp] theorem State.countTo_chan (n : Nat) (c : Chan) : (s.countTo n).chan c = s.chan c := rfl
@[simp] theorem State.countTo_slot (n : Nat) (i : SlotNo) : (s.countTo n).slot i = s.slot i := rfl
@[simp] theorem State.countTo_window (n : Nat) (w : WindowNo) : (s.countTo n).window w = s.window w := rfl
@[simp] theorem State.countTo_grantCount (n : Nat) (p : Station) : (s.countTo n).grantCount p = s.grantCount p := rfl
@[simp] theorem State.countTo_waitOf (n : Nat) (c : Chan) : (s.countTo n).waitOf c = s.waitOf c := rfl

/-! ## transmitNow -/

@[simp] theorem State.transmitNow_phase (item : Outgoing) (m : Message) : (s.transmitNow item m).phase = s.phase := rfl
@[simp] theorem State.transmitNow_latch (item : Outgoing) (m : Message) : (s.transmitNow item m).latch = s.latch := rfl
@[simp] theorem State.transmitNow_station (item : Outgoing) (m : Message) : (s.transmitNow item m).station = s.station := rfl
@[simp] theorem State.transmitNow_marks (item : Outgoing) (m : Message) : (s.transmitNow item m).marks = s.marks := rfl
@[simp] theorem State.transmitNow_peers (item : Outgoing) (m : Message) : (s.transmitNow item m).peers = s.peers := rfl
@[simp] theorem State.transmitNow_changes (item : Outgoing) (m : Message) : (s.transmitNow item m).changes = s.changes := rfl
@[simp] theorem State.transmitNow_credit (item : Outgoing) (m : Message) : (s.transmitNow item m).credit = s.credit := rfl
@[simp] theorem State.transmitNow_windows (item : Outgoing) (m : Message) : (s.transmitNow item m).windows = s.windows := rfl
@[simp] theorem State.transmitNow_inbound (item : Outgoing) (m : Message) : (s.transmitNow item m).inbound = s.inbound := rfl
@[simp] theorem State.transmitNow_channels (item : Outgoing) (m : Message) : (s.transmitNow item m).channels = s.channels := rfl
@[simp] theorem State.transmitNow_readyList (item : Outgoing) (m : Message) : (s.transmitNow item m).readyList = s.readyList := rfl
@[simp] theorem State.transmitNow_entries (item : Outgoing) (m : Message) : (s.transmitNow item m).entries = s.entries := rfl
@[simp] theorem State.transmitNow_port (item : Outgoing) (m : Message) : (s.transmitNow item m).port = s.port := rfl
@[simp] theorem State.transmitNow_ring (item : Outgoing) (m : Message) : (s.transmitNow item m).ring = s.ring := rfl
@[simp] theorem State.transmitNow_host (item : Outgoing) (m : Message) : (s.transmitNow item m).host = s.host := rfl
@[simp] theorem State.transmitNow_written (item : Outgoing) (m : Message) : (s.transmitNow item m).written = s.written := rfl
@[simp] theorem State.transmitNow_pending (item : Outgoing) (m : Message) : (s.transmitNow item m).pending = s.pending := rfl
@[simp] theorem State.transmitNow_peer (item : Outgoing) (m : Message) (p : Station) : (s.transmitNow item m).peer p = s.peer p := rfl
@[simp] theorem State.transmitNow_entry (item : Outgoing) (m : Message) (t : Tag) : (s.transmitNow item m).entry t = s.entry t := rfl
@[simp] theorem State.transmitNow_chan (item : Outgoing) (m : Message) (c : Chan) : (s.transmitNow item m).chan c = s.chan c := rfl
@[simp] theorem State.transmitNow_slot (item : Outgoing) (m : Message) (i : SlotNo) : (s.transmitNow item m).slot i = s.slot i := rfl
@[simp] theorem State.transmitNow_window (item : Outgoing) (m : Message) (w : WindowNo) : (s.transmitNow item m).window w = s.window w := rfl
@[simp] theorem State.transmitNow_grantCount (item : Outgoing) (m : Message) (p : Station) : (s.transmitNow item m).grantCount p = s.grantCount p := rfl
@[simp] theorem State.transmitNow_waitOf (item : Outgoing) (m : Message) (c : Chan) : (s.transmitNow item m).waitOf c = s.waitOf c := rfl

/-! ## The place written, and the others -/

theorem State.peer_setPeer (q p : Station) (x : PeerEntry) :
    (s.setPeer q x).peer p = if q = p then x else s.peer p := by
  simp only [State.peer, State.setPeer, Fin.getElem_fin, Vector.getElem_set, Fin.ext_iff]

@[simp] theorem State.peer_setPeer_self (q : Station) (x : PeerEntry) : (s.setPeer q x).peer q = x := by
  simp [State.peer_setPeer]

theorem State.peer_setPeer_of_ne {q p : Station} (h : q ≠ p) (x : PeerEntry) : (s.setPeer q x).peer p = s.peer p := by
  simp [State.peer_setPeer, h]

theorem State.entry_setEntry (q p : Tag) (x : Option Entry) :
    (s.setEntry q x).entry p = if q = p then x else s.entry p := by
  simp only [State.entry, State.setEntry, Fin.getElem_fin, Vector.getElem_set, Fin.ext_iff]

@[simp] theorem State.entry_setEntry_self (q : Tag) (x : Option Entry) : (s.setEntry q x).entry q = x := by
  simp [State.entry_setEntry]

theorem State.entry_setEntry_of_ne {q p : Tag} (h : q ≠ p) (x : Option Entry) : (s.setEntry q x).entry p = s.entry p := by
  simp [State.entry_setEntry, h]

theorem State.chan_setChan (q p : Chan) (x : Channel) :
    (s.setChan q x).chan p = if q = p then x else s.chan p := by
  simp only [State.chan, State.setChan, Fin.getElem_fin, Vector.getElem_set, Fin.ext_iff]

@[simp] theorem State.chan_setChan_self (q : Chan) (x : Channel) : (s.setChan q x).chan q = x := by
  simp [State.chan_setChan]

theorem State.chan_setChan_of_ne {q p : Chan} (h : q ≠ p) (x : Channel) : (s.setChan q x).chan p = s.chan p := by
  simp [State.chan_setChan, h]

theorem State.slot_setSlot (q p : SlotNo) (x : Option Slot) :
    (s.setSlot q x).slot p = if q = p then x else s.slot p := by
  simp only [State.slot, State.setSlot, Fin.getElem_fin, Vector.getElem_set, Fin.ext_iff]

@[simp] theorem State.slot_setSlot_self (q : SlotNo) (x : Option Slot) : (s.setSlot q x).slot q = x := by
  simp [State.slot_setSlot]

theorem State.slot_setSlot_of_ne {q p : SlotNo} (h : q ≠ p) (x : Option Slot) : (s.setSlot q x).slot p = s.slot p := by
  simp [State.slot_setSlot, h]

theorem State.window_setWindowAt (q p : WindowNo) (x : Window) :
    (s.setWindowAt q x).window p = if q = p then x else s.window p := by
  simp only [State.window, State.setWindowAt, Fin.getElem_fin, Vector.getElem_set, Fin.ext_iff]

@[simp] theorem State.window_setWindowAt_self (q : WindowNo) (x : Window) : (s.setWindowAt q x).window q = x := by
  simp [State.window_setWindowAt]

theorem State.window_setWindowAt_of_ne {q p : WindowNo} (h : q ≠ p) (x : Window) : (s.setWindowAt q x).window p = s.window p := by
  simp [State.window_setWindowAt, h]

theorem State.grantCount_setGrant (q p : Station) (x : Nat) :
    (s.setGrant q x).grantCount p = if q = p then x else s.grantCount p := by
  simp only [State.grantCount, State.setGrant, Fin.getElem_fin, Vector.getElem_set, Fin.ext_iff]

@[simp] theorem State.grantCount_setGrant_self (q : Station) (x : Nat) : (s.setGrant q x).grantCount q = x := by
  simp [State.grantCount_setGrant]

theorem State.grantCount_setGrant_of_ne {q p : Station} (h : q ≠ p) (x : Nat) : (s.setGrant q x).grantCount p = s.grantCount p := by
  simp [State.grantCount_setGrant, h]

theorem State.waitOf_setWait (q p : Chan) (x : Option WaitMember) :
    (s.setWait q x).waitOf p = if q = p then x else s.waitOf p := by
  simp only [State.waitOf, State.setWait, Fin.getElem_fin, Vector.getElem_set, Fin.ext_iff]

@[simp] theorem State.waitOf_setWait_self (q : Chan) (x : Option WaitMember) : (s.setWait q x).waitOf q = x := by
  simp [State.waitOf_setWait]

theorem State.waitOf_setWait_of_ne {q p : Chan} (h : q ≠ p) (x : Option WaitMember) : (s.setWait q x).waitOf p = s.waitOf p := by
  simp [State.waitOf_setWait, h]

theorem State.peer_modPeer (q p : Station) (f : PeerEntry → PeerEntry) :
    (s.modPeer q f).peer p = if q = p then f (s.peer q) else s.peer p := State.peer_setPeer s q p _

@[simp] theorem State.peer_modPeer_self (q : Station) (f : PeerEntry → PeerEntry) : (s.modPeer q f).peer q = f (s.peer q) :=
  State.peer_setPeer_self s q _

theorem State.chan_modChan (q p : Chan) (f : Channel → Channel) :
    (s.modChan q f).chan p = if q = p then f (s.chan q) else s.chan p := State.chan_setChan s q p _

@[simp] theorem State.chan_modChan_self (q : Chan) (f : Channel → Channel) : (s.modChan q f).chan q = f (s.chan q) :=
  State.chan_setChan_self s q _

theorem State.entry_modEntry (q p : Tag) (f : Entry → Entry) :
    (s.modEntry q f).entry p = if q = p then (s.entry q).map f else s.entry p := State.entry_setEntry s q p _

@[simp] theorem State.entry_modEntry_self (q : Tag) (f : Entry → Entry) : (s.modEntry q f).entry q = (s.entry q).map f :=
  State.entry_setEntry_self s q _

theorem State.slot_modSlot (q p : SlotNo) (f : Slot → Slot) :
    (s.modSlot q f).slot p = if q = p then (s.slot q).map f else s.slot p := State.slot_setSlot s q p _

@[simp] theorem State.slot_modSlot_self (q : SlotNo) (f : Slot → Slot) : (s.modSlot q f).slot q = (s.slot q).map f :=
  State.slot_setSlot_self s q _

end Sys2Proof.Machine
end

