-- ==== Sys2Proof/Laws/Commands.lean ====
section
/-! SUPPORT. The two shapes that most meanings have: a command taken by a write of CMD, and a message heard from a peer;
and what queuing a control message does to the counts of the control queue. -/
namespace Sys2Proof.Machine

open Sys2Proof.Safety

variable {s : State}

/-! ## Commands -/

/-- R174: a command taken while the part runs: CMD holds the word, the decision is made, RESULT is written. -/
theorem State.takeCommand_running (h : s.phase = .running) (code operand : Byte)
    (decision : State → State × ResultCode) :
    s.takeCommand code operand decision =
      (decision (commanded s code operand)).1.answer code (decision (commanded s code operand)).2 := by
  simp only [State.takeCommand, if_pos h, commanded, wordOfBytes]

/-- R1, R171: outside the running phase a command is discarded. -/
theorem State.takeCommand_silent (h : s.phase ≠ .running) (code operand : Byte)
    (decision : State → State × ResultCode) : s.takeCommand code operand decision = s := by
  simp only [State.takeCommand, if_neg h]

/-- A command that the station state does not take answers WRONG-STATE. -/
theorem State.inStateOnly_of_ne {st : StationState} (h : s.station.state ≠ some st)
    (decision : State → State × ResultCode) : s.inStateOnly st decision = (s, .wrongState) := by
  simp [State.inStateOnly, State.inState, h]

/-- A command that the station state takes is decided. -/
theorem State.inStateOnly_of_eq {st : StationState} (h : s.station.state = some st)
    (decision : State → State × ResultCode) : s.inStateOnly st decision = decision s := by
  simp [State.inStateOnly, State.inState, h]

/-- RESULT as the statements write it. -/
theorem State.answer_eq_resulted (code : Byte) (r : ResultCode) :
    s.answer code r = resulted s code (BitVec.ofNat 8 r.code) := rfl

/-! ## Messages heard -/

/-- A byte that is the number of a peer of the group. -/
theorem stationBelow_of_lt {n : Nat} {b : Byte} {p : Station} (hp : b.toNat = p.val) (hn : p.val < n) :
    stationBelow n b = some p := by
  have h16 : b.toNat < 16 := hp ▸ p.isLt
  simp only [stationBelow, dif_pos h16, if_pos (show b.toNat < n by omega)]
  exact congrArg some (Fin.ext hp)

/-- R22: a good message heard from a peer is delivered after the line has taken it, and the part then goes on. -/
theorem State.hearFrom_hearing {source : Byte} {p : Station} (h : Hearing s source p) (take : Station → State → State) :
    s.hearFrom source true take = (take p (heardLine s p)).settle := by
  obtain ⟨hl, hd, hp, ho, hn⟩ := h
  simp only [State.hearFrom, hl, State.deaf, decide_eq_false hd, stationBelow_of_lt hp hn, if_neg (show ¬ source.toNat = s.own by omega),
    Bool.not_true, Bool.false_eq_true, if_false, if_true]
  rfl

/-- R22: a malformed message heard from a peer only makes the station warm. -/
theorem State.hearFrom_malformed {source : Byte} {p : Station} (h : Hearing s source p)
    (take : Station → State → State) : s.hearFrom source false take = heardLine s p := by
  obtain ⟨hl, hd, hp, ho, hn⟩ := h
  simp only [State.hearFrom, hl, State.deaf, decide_eq_false hd, stationBelow_of_lt hp hn, if_neg (show ¬ source.toNat = s.own by omega),
    Bool.not_true, Bool.false_eq_true, if_false]
  rfl

/-- R13, R22: a message with the own number as source isolates. -/
theorem State.hearFrom_own {source : Byte} (hl : s.listening = true) (hd : s.bus.line ≠ .abandoned)
    (ho : source.toNat = s.own) (ok : Bool) (take : Station → State → State) :
    s.hearFrom source ok take = s.isolate := by
  simp only [State.hearFrom, hl, State.deaf, decide_eq_false hd, ho, Bool.not_true, Bool.false_eq_true, if_false, if_true]

/-- A station that does not listen hears nothing. -/
theorem State.hearFrom_silent {source : Byte} (hl : s.listening = false) (ok : Bool) (take : Station → State → State) :
    s.hearFrom source ok take = s := by
  simp only [State.hearFrom, hl, Bool.not_false, if_true]

/-- R24, R35, R36: the message of an activity in which the station abandoned its own is not heard. -/
theorem State.hearFrom_deaf {source : Byte} (hl : s.listening = true) (hd : s.bus.line = .abandoned) (ok : Bool)
    (take : Station → State → State) : s.hearFrom source ok take = coldLine s := by
  simp only [State.hearFrom, hl, State.deaf, decide_eq_true hd, Bool.not_true, Bool.false_eq_true, if_false, if_true]
  rfl

/-! ## The control queue (R31) -/

/-- Queuing changes the number of GRANTs to `p` only if the new message is one. -/
theorem countP_isGrantTo_coalesce (q : List Control) (c : Control) (p : Station) :
    (coalesce q c).countP (Control.isGrantTo p) = q.countP (Control.isGrantTo p) + bit (c.isGrantTo p) := by
  have keep (f : Control → Control) (hf : ∀ x, (f x).isGrantTo p = x.isGrantTo p) :
      (q.map f).countP (Control.isGrantTo p) = q.countP (Control.isGrantTo p) := by
    rw [List.countP_map]
    exact List.countP_congr fun x _ => by simp [hf x]
  cases c with
  | join => simp [coalesce, List.countP_append, Control.isGrantTo, bit]
  | presence =>
      simp only [coalesce]
      split <;> simp [List.countP_append, Control.isGrantTo, bit]
  | leave =>
      simp only [coalesce]
      split
      · rw [keep _ fun x => by cases x <;> simp [Control.isAnnouncement, Control.isGrantTo]]
        simp [Control.isGrantTo, bit]
      · simp [List.countP_append, Control.isGrantTo, bit]
  | ask r n =>
      simp only [coalesce]
      split
      · rw [keep _ fun x => by
          cases x with
          | ask r' n' => by_cases hr : r' = r <;> simp [Control.isAskTo, Control.isGrantTo, hr]
          | join | presence | leave | grant _ _ _ => simp [Control.isAskTo, Control.isGrantTo]]
        simp [Control.isGrantTo, bit]
      · simp [List.countP_append, Control.isGrantTo, bit]
  | grant r n e =>
      by_cases h : r = p <;> simp [coalesce, List.countP_append, Control.isGrantTo, bit, h]

/-- Queuing keeps at most one ASK to `p` waiting. -/
theorem countP_isAskTo_coalesce_le (q : List Control) (c : Control) (p : Station)
    (h : q.countP (Control.isAskTo p) ≤ 1) : (coalesce q c).countP (Control.isAskTo p) ≤ 1 := by
  have keep (f : Control → Control) (hf : ∀ x, (f x).isAskTo p = x.isAskTo p) :
      (q.map f).countP (Control.isAskTo p) ≤ 1 := by
    rw [List.countP_map]
    exact le_of_eq_of_le (List.countP_congr fun x _ => by simp [hf x]) h
  cases c with
  | join => simpa [coalesce, List.countP_append, Control.isAskTo] using h
  | presence =>
      simp only [coalesce]
      split
      · exact h
      · simpa [List.countP_append, Control.isAskTo] using h
  | leave =>
      simp only [coalesce]
      split
      · exact keep _ fun x => by cases x <;> simp [Control.isAnnouncement, Control.isAskTo]
      · simpa [List.countP_append, Control.isAskTo] using h
  | ask r n =>
      simp only [coalesce]
      split
      · refine keep _ fun x => ?_
        cases x with
        | ask r' n' =>
            by_cases hr : r' = r
            · simp [Control.isAskTo, hr]
            · simp [Control.isAskTo, hr]
        | join | presence | leave | grant _ _ _ => simp [Control.isAskTo]
      · by_cases hr : r = p
        · subst hr
          have h0 : q.countP (Control.isAskTo r) = 0 := by
            rw [List.countP_eq_zero]
            intro x hx hxr
            exact ‹¬ _› (List.any_eq_true.2 ⟨x, hx, hxr⟩)
          simp [List.countP_append, Control.isAskTo, h0]
        · simpa [List.countP_append, Control.isAskTo, hr] using h
  | grant r n e => simpa [coalesce, List.countP_append, Control.isAskTo] using h

end Sys2Proof.Machine
end

