-- ==== Sys2Proof/Laws/Frames.lean ====
section
/-! SUPPORT. The frames of the shared operations. For each, one lemma names the blocks it may write, and from it every
other block reads as before. Generated but for the first lemma of each operation. -/
namespace Sys2Proof.Machine

variable (s : State)

/-- What `queuePresence` may write. -/
theorem State.queuePresence_frame :
    ∃ x1, s.queuePresence = { s with bus := x1 } := by
  unfold State.queuePresence
  split
  · exact ⟨_, rfl⟩
  · exact ⟨_, rfl⟩

@[simp] theorem State.queuePresence_phase : s.queuePresence.phase = s.phase := by
  obtain ⟨_, h⟩ := State.queuePresence_frame s; rw [h]
@[simp] theorem State.queuePresence_latch : s.queuePresence.latch = s.latch := by
  obtain ⟨_, h⟩ := State.queuePresence_frame s; rw [h]
@[simp] theorem State.queuePresence_station : s.queuePresence.station = s.station := by
  obtain ⟨_, h⟩ := State.queuePresence_frame s; rw [h]
@[simp] theorem State.queuePresence_marks : s.queuePresence.marks = s.marks := by
  obtain ⟨_, h⟩ := State.queuePresence_frame s; rw [h]
@[simp] theorem State.queuePresence_peers : s.queuePresence.peers = s.peers := by
  obtain ⟨_, h⟩ := State.queuePresence_frame s; rw [h]
@[simp] theorem State.queuePresence_changes : s.queuePresence.changes = s.changes := by
  obtain ⟨_, h⟩ := State.queuePresence_frame s; rw [h]
@[simp] theorem State.queuePresence_credit : s.queuePresence.credit = s.credit := by
  obtain ⟨_, h⟩ := State.queuePresence_frame s; rw [h]
@[simp] theorem State.queuePresence_windows : s.queuePresence.windows = s.windows := by
  obtain ⟨_, h⟩ := State.queuePresence_frame s; rw [h]
@[simp] theorem State.queuePresence_inbound : s.queuePresence.inbound = s.inbound := by
  obtain ⟨_, h⟩ := State.queuePresence_frame s; rw [h]
@[simp] theorem State.queuePresence_channels : s.queuePresence.channels = s.channels := by
  obtain ⟨_, h⟩ := State.queuePresence_frame s; rw [h]
@[simp] theorem State.queuePresence_readyList : s.queuePresence.readyList = s.readyList := by
  obtain ⟨_, h⟩ := State.queuePresence_frame s; rw [h]
@[simp] theorem State.queuePresence_entries : s.queuePresence.entries = s.entries := by
  obtain ⟨_, h⟩ := State.queuePresence_frame s; rw [h]
@[simp] theorem State.queuePresence_port : s.queuePresence.port = s.port := by
  obtain ⟨_, h⟩ := State.queuePresence_frame s; rw [h]
@[simp] theorem State.queuePresence_ring : s.queuePresence.ring = s.ring := by
  obtain ⟨_, h⟩ := State.queuePresence_frame s; rw [h]
@[simp] theorem State.queuePresence_host : s.queuePresence.host = s.host := by
  obtain ⟨_, h⟩ := State.queuePresence_frame s; rw [h]
@[simp] theorem State.queuePresence_written : s.queuePresence.written = s.written := by
  obtain ⟨_, h⟩ := State.queuePresence_frame s; rw [h]
@[simp] theorem State.queuePresence_pending : s.queuePresence.pending = s.pending := by
  obtain ⟨_, h⟩ := State.queuePresence_frame s; rw [h]
@[simp] theorem State.queuePresence_peer (p : Station) : s.queuePresence.peer p = s.peer p := by
  simp [State.peer]
@[simp] theorem State.queuePresence_entry (t : Tag) : s.queuePresence.entry t = s.entry t := by
  simp [State.entry]
@[simp] theorem State.queuePresence_chan (c : Chan) : s.queuePresence.chan c = s.chan c := by
  simp [State.chan]
@[simp] theorem State.queuePresence_slot (i : SlotNo) : s.queuePresence.slot i = s.slot i := by
  simp [State.slot]
@[simp] theorem State.queuePresence_window (w : WindowNo) : s.queuePresence.window w = s.window w := by
  simp [State.window]
@[simp] theorem State.queuePresence_grantCount (p : Station) : s.queuePresence.grantCount p = s.grantCount p := by
  simp [State.grantCount]

/-- What `advanceMark` may write. -/
theorem State.advanceMark_frame :
    ∃ x1 x2, s.advanceMark = { s with bus := x1, marks := x2 } := by
  simp only [State.advanceMark]
  split
  · obtain ⟨b, h⟩ := State.queuePresence_frame { s with marks := { s.marks with own := s.marks.own + 1#16 } }
    exact ⟨b, _, h⟩
  · exact ⟨_, _, rfl⟩

@[simp] theorem State.advanceMark_phase : s.advanceMark.phase = s.phase := by
  obtain ⟨_, _, h⟩ := State.advanceMark_frame s; rw [h]
@[simp] theorem State.advanceMark_latch : s.advanceMark.latch = s.latch := by
  obtain ⟨_, _, h⟩ := State.advanceMark_frame s; rw [h]
@[simp] theorem State.advanceMark_station : s.advanceMark.station = s.station := by
  obtain ⟨_, _, h⟩ := State.advanceMark_frame s; rw [h]
@[simp] theorem State.advanceMark_peers : s.advanceMark.peers = s.peers := by
  obtain ⟨_, _, h⟩ := State.advanceMark_frame s; rw [h]
@[simp] theorem State.advanceMark_changes : s.advanceMark.changes = s.changes := by
  obtain ⟨_, _, h⟩ := State.advanceMark_frame s; rw [h]
@[simp] theorem State.advanceMark_credit : s.advanceMark.credit = s.credit := by
  obtain ⟨_, _, h⟩ := State.advanceMark_frame s; rw [h]
@[simp] theorem State.advanceMark_windows : s.advanceMark.windows = s.windows := by
  obtain ⟨_, _, h⟩ := State.advanceMark_frame s; rw [h]
@[simp] theorem State.advanceMark_inbound : s.advanceMark.inbound = s.inbound := by
  obtain ⟨_, _, h⟩ := State.advanceMark_frame s; rw [h]
@[simp] theorem State.advanceMark_channels : s.advanceMark.channels = s.channels := by
  obtain ⟨_, _, h⟩ := State.advanceMark_frame s; rw [h]
@[simp] theorem State.advanceMark_readyList : s.advanceMark.readyList = s.readyList := by
  obtain ⟨_, _, h⟩ := State.advanceMark_frame s; rw [h]
@[simp] theorem State.advanceMark_entries : s.advanceMark.entries = s.entries := by
  obtain ⟨_, _, h⟩ := State.advanceMark_frame s; rw [h]
@[simp] theorem State.advanceMark_port : s.advanceMark.port = s.port := by
  obtain ⟨_, _, h⟩ := State.advanceMark_frame s; rw [h]
@[simp] theorem State.advanceMark_ring : s.advanceMark.ring = s.ring := by
  obtain ⟨_, _, h⟩ := State.advanceMark_frame s; rw [h]
@[simp] theorem State.advanceMark_host : s.advanceMark.host = s.host := by
  obtain ⟨_, _, h⟩ := State.advanceMark_frame s; rw [h]
@[simp] theorem State.advanceMark_written : s.advanceMark.written = s.written := by
  obtain ⟨_, _, h⟩ := State.advanceMark_frame s; rw [h]
@[simp] theorem State.advanceMark_pending : s.advanceMark.pending = s.pending := by
  obtain ⟨_, _, h⟩ := State.advanceMark_frame s; rw [h]
@[simp] theorem State.advanceMark_peer (p : Station) : s.advanceMark.peer p = s.peer p := by
  simp [State.peer]
@[simp] theorem State.advanceMark_entry (t : Tag) : s.advanceMark.entry t = s.entry t := by
  simp [State.entry]
@[simp] theorem State.advanceMark_chan (c : Chan) : s.advanceMark.chan c = s.chan c := by
  simp [State.chan]
@[simp] theorem State.advanceMark_slot (i : SlotNo) : s.advanceMark.slot i = s.slot i := by
  simp [State.slot]
@[simp] theorem State.advanceMark_window (w : WindowNo) : s.advanceMark.window w = s.window w := by
  simp [State.window]
@[simp] theorem State.advanceMark_grantCount (p : Station) : s.advanceMark.grantCount p = s.grantCount p := by
  simp [State.grantCount]

/-- What `retestReady` may write. -/
theorem State.retestReady_frame :
    ∃ x1, s.retestReady = { s with readyList := x1 } :=
  ⟨_, rfl⟩

@[simp] theorem State.retestReady_phase : s.retestReady.phase = s.phase := by
  obtain ⟨_, h⟩ := State.retestReady_frame s; rw [h]
@[simp] theorem State.retestReady_latch : s.retestReady.latch = s.latch := by
  obtain ⟨_, h⟩ := State.retestReady_frame s; rw [h]
@[simp] theorem State.retestReady_station : s.retestReady.station = s.station := by
  obtain ⟨_, h⟩ := State.retestReady_frame s; rw [h]
@[simp] theorem State.retestReady_marks : s.retestReady.marks = s.marks := by
  obtain ⟨_, h⟩ := State.retestReady_frame s; rw [h]
@[simp] theorem State.retestReady_bus : s.retestReady.bus = s.bus := by
  obtain ⟨_, h⟩ := State.retestReady_frame s; rw [h]
@[simp] theorem State.retestReady_peers : s.retestReady.peers = s.peers := by
  obtain ⟨_, h⟩ := State.retestReady_frame s; rw [h]
@[simp] theorem State.retestReady_changes : s.retestReady.changes = s.changes := by
  obtain ⟨_, h⟩ := State.retestReady_frame s; rw [h]
@[simp] theorem State.retestReady_credit : s.retestReady.credit = s.credit := by
  obtain ⟨_, h⟩ := State.retestReady_frame s; rw [h]
@[simp] theorem State.retestReady_windows : s.retestReady.windows = s.windows := by
  obtain ⟨_, h⟩ := State.retestReady_frame s; rw [h]
@[simp] theorem State.retestReady_inbound : s.retestReady.inbound = s.inbound := by
  obtain ⟨_, h⟩ := State.retestReady_frame s; rw [h]
@[simp] theorem State.retestReady_channels : s.retestReady.channels = s.channels := by
  obtain ⟨_, h⟩ := State.retestReady_frame s; rw [h]
@[simp] theorem State.retestReady_entries : s.retestReady.entries = s.entries := by
  obtain ⟨_, h⟩ := State.retestReady_frame s; rw [h]
@[simp] theorem State.retestReady_port : s.retestReady.port = s.port := by
  obtain ⟨_, h⟩ := State.retestReady_frame s; rw [h]
@[simp] theorem State.retestReady_ring : s.retestReady.ring = s.ring := by
  obtain ⟨_, h⟩ := State.retestReady_frame s; rw [h]
@[simp] theorem State.retestReady_host : s.retestReady.host = s.host := by
  obtain ⟨_, h⟩ := State.retestReady_frame s; rw [h]
@[simp] theorem State.retestReady_written : s.retestReady.written = s.written := by
  obtain ⟨_, h⟩ := State.retestReady_frame s; rw [h]
@[simp] theorem State.retestReady_pending : s.retestReady.pending = s.pending := by
  obtain ⟨_, h⟩ := State.retestReady_frame s; rw [h]
@[simp] theorem State.retestReady_peer (p : Station) : s.retestReady.peer p = s.peer p := by
  simp [State.peer]
@[simp] theorem State.retestReady_entry (t : Tag) : s.retestReady.entry t = s.entry t := by
  simp [State.entry]
@[simp] theorem State.retestReady_chan (c : Chan) : s.retestReady.chan c = s.chan c := by
  simp [State.chan]
@[simp] theorem State.retestReady_slot (i : SlotNo) : s.retestReady.slot i = s.slot i := by
  simp [State.slot]
@[simp] theorem State.retestReady_window (w : WindowNo) : s.retestReady.window w = s.window w := by
  simp [State.window]
@[simp] theorem State.retestReady_grantCount (p : Station) : s.retestReady.grantCount p = s.grantCount p := by
  simp [State.grantCount]

/-- What `retire` may write. -/
theorem State.retire_frame (u : Tag) (o : PieceOutcome) :
    ∃ x1 x2 x3, s.retire u o = { s with entries := x1, channels := x2, readyList := x3 } := by
  unfold State.retire
  split
  · exact ⟨_, _, _, rfl⟩
  · exact ⟨_, _, _, rfl⟩

@[simp] theorem State.retire_phase (u : Tag) (o : PieceOutcome) : (s.retire u o).phase = s.phase := by
  obtain ⟨_, _, _, h⟩ := State.retire_frame s u o; rw [h]
@[simp] theorem State.retire_latch (u : Tag) (o : PieceOutcome) : (s.retire u o).latch = s.latch := by
  obtain ⟨_, _, _, h⟩ := State.retire_frame s u o; rw [h]
@[simp] theorem State.retire_station (u : Tag) (o : PieceOutcome) : (s.retire u o).station = s.station := by
  obtain ⟨_, _, _, h⟩ := State.retire_frame s u o; rw [h]
@[simp] theorem State.retire_marks (u : Tag) (o : PieceOutcome) : (s.retire u o).marks = s.marks := by
  obtain ⟨_, _, _, h⟩ := State.retire_frame s u o; rw [h]
@[simp] theorem State.retire_bus (u : Tag) (o : PieceOutcome) : (s.retire u o).bus = s.bus := by
  obtain ⟨_, _, _, h⟩ := State.retire_frame s u o; rw [h]
@[simp] theorem State.retire_peers (u : Tag) (o : PieceOutcome) : (s.retire u o).peers = s.peers := by
  obtain ⟨_, _, _, h⟩ := State.retire_frame s u o; rw [h]
@[simp] theorem State.retire_changes (u : Tag) (o : PieceOutcome) : (s.retire u o).changes = s.changes := by
  obtain ⟨_, _, _, h⟩ := State.retire_frame s u o; rw [h]
@[simp] theorem State.retire_credit (u : Tag) (o : PieceOutcome) : (s.retire u o).credit = s.credit := by
  obtain ⟨_, _, _, h⟩ := State.retire_frame s u o; rw [h]
@[simp] theorem State.retire_windows (u : Tag) (o : PieceOutcome) : (s.retire u o).windows = s.windows := by
  obtain ⟨_, _, _, h⟩ := State.retire_frame s u o; rw [h]
@[simp] theorem State.retire_inbound (u : Tag) (o : PieceOutcome) : (s.retire u o).inbound = s.inbound := by
  obtain ⟨_, _, _, h⟩ := State.retire_frame s u o; rw [h]
@[simp] theorem State.retire_port (u : Tag) (o : PieceOutcome) : (s.retire u o).port = s.port := by
  obtain ⟨_, _, _, h⟩ := State.retire_frame s u o; rw [h]
@[simp] theorem State.retire_ring (u : Tag) (o : PieceOutcome) : (s.retire u o).ring = s.ring := by
  obtain ⟨_, _, _, h⟩ := State.retire_frame s u o; rw [h]
@[simp] theorem State.retire_host (u : Tag) (o : PieceOutcome) : (s.retire u o).host = s.host := by
  obtain ⟨_, _, _, h⟩ := State.retire_frame s u o; rw [h]
@[simp] theorem State.retire_written (u : Tag) (o : PieceOutcome) : (s.retire u o).written = s.written := by
  obtain ⟨_, _, _, h⟩ := State.retire_frame s u o; rw [h]
@[simp] theorem State.retire_pending (u : Tag) (o : PieceOutcome) : (s.retire u o).pending = s.pending := by
  obtain ⟨_, _, _, h⟩ := State.retire_frame s u o; rw [h]
@[simp] theorem State.retire_peer (u : Tag) (o : PieceOutcome) (p : Station) : (s.retire u o).peer p = s.peer p := by
  simp [State.peer]
@[simp] theorem State.retire_slot (u : Tag) (o : PieceOutcome) (i : SlotNo) : (s.retire u o).slot i = s.slot i := by
  simp [State.slot]
@[simp] theorem State.retire_window (u : Tag) (o : PieceOutcome) (w : WindowNo) : (s.retire u o).window w = s.window w := by
  simp [State.window]
@[simp] theorem State.retire_grantCount (u : Tag) (o : PieceOutcome) (p : Station) : (s.retire u o).grantCount p = s.grantCount p := by
  simp [State.grantCount]

/-- What `joinWaitList` may write. -/
theorem State.joinWaitList_frame (u : Tag) (q : Station) :
    ∃ x1 x2, s.joinWaitList u q = { s with entries := x1, peers := x2 } :=
  ⟨_, _, rfl⟩

@[simp] theorem State.joinWaitList_phase (u : Tag) (q : Station) : (s.joinWaitList u q).phase = s.phase := by
  obtain ⟨_, _, h⟩ := State.joinWaitList_frame s u q; rw [h]
@[simp] theorem State.joinWaitList_latch (u : Tag) (q : Station) : (s.joinWaitList u q).latch = s.latch := by
  obtain ⟨_, _, h⟩ := State.joinWaitList_frame s u q; rw [h]
@[simp] theorem State.joinWaitList_station (u : Tag) (q : Station) : (s.joinWaitList u q).station = s.station := by
  obtain ⟨_, _, h⟩ := State.joinWaitList_frame s u q; rw [h]
@[simp] theorem State.joinWaitList_marks (u : Tag) (q : Station) : (s.joinWaitList u q).marks = s.marks := by
  obtain ⟨_, _, h⟩ := State.joinWaitList_frame s u q; rw [h]
@[simp] theorem State.joinWaitList_bus (u : Tag) (q : Station) : (s.joinWaitList u q).bus = s.bus := by
  obtain ⟨_, _, h⟩ := State.joinWaitList_frame s u q; rw [h]
@[simp] theorem State.joinWaitList_changes (u : Tag) (q : Station) : (s.joinWaitList u q).changes = s.changes := by
  obtain ⟨_, _, h⟩ := State.joinWaitList_frame s u q; rw [h]
@[simp] theorem State.joinWaitList_credit (u : Tag) (q : Station) : (s.joinWaitList u q).credit = s.credit := by
  obtain ⟨_, _, h⟩ := State.joinWaitList_frame s u q; rw [h]
@[simp] theorem State.joinWaitList_windows (u : Tag) (q : Station) : (s.joinWaitList u q).windows = s.windows := by
  obtain ⟨_, _, h⟩ := State.joinWaitList_frame s u q; rw [h]
@[simp] theorem State.joinWaitList_inbound (u : Tag) (q : Station) : (s.joinWaitList u q).inbound = s.inbound := by
  obtain ⟨_, _, h⟩ := State.joinWaitList_frame s u q; rw [h]
@[simp] theorem State.joinWaitList_channels (u : Tag) (q : Station) : (s.joinWaitList u q).channels = s.channels := by
  obtain ⟨_, _, h⟩ := State.joinWaitList_frame s u q; rw [h]
@[simp] theorem State.joinWaitList_readyList (u : Tag) (q : Station) : (s.joinWaitList u q).readyList = s.readyList := by
  obtain ⟨_, _, h⟩ := State.joinWaitList_frame s u q; rw [h]
@[simp] theorem State.joinWaitList_port (u : Tag) (q : Station) : (s.joinWaitList u q).port = s.port := by
  obtain ⟨_, _, h⟩ := State.joinWaitList_frame s u q; rw [h]
@[simp] theorem State.joinWaitList_ring (u : Tag) (q : Station) : (s.joinWaitList u q).ring = s.ring := by
  obtain ⟨_, _, h⟩ := State.joinWaitList_frame s u q; rw [h]
@[simp] theorem State.joinWaitList_host (u : Tag) (q : Station) : (s.joinWaitList u q).host = s.host := by
  obtain ⟨_, _, h⟩ := State.joinWaitList_frame s u q; rw [h]
@[simp] theorem State.joinWaitList_written (u : Tag) (q : Station) : (s.joinWaitList u q).written = s.written := by
  obtain ⟨_, _, h⟩ := State.joinWaitList_frame s u q; rw [h]
@[simp] theorem State.joinWaitList_pending (u : Tag) (q : Station) : (s.joinWaitList u q).pending = s.pending := by
  obtain ⟨_, _, h⟩ := State.joinWaitList_frame s u q; rw [h]
@[simp] theorem State.joinWaitList_chan (u : Tag) (q : Station) (c : Chan) : (s.joinWaitList u q).chan c = s.chan c := by
  simp [State.chan]
@[simp] theorem State.joinWaitList_slot (u : Tag) (q : Station) (i : SlotNo) : (s.joinWaitList u q).slot i = s.slot i := by
  simp [State.slot]
@[simp] theorem State.joinWaitList_window (u : Tag) (q : Station) (w : WindowNo) : (s.joinWaitList u q).window w = s.window w := by
  simp [State.window]
@[simp] theorem State.joinWaitList_grantCount (u : Tag) (q : Station) (p : Station) : (s.joinWaitList u q).grantCount p = s.grantCount p := by
  simp [State.grantCount]

/-- What `leaveWaitList` may write. -/
theorem State.leaveWaitList_frame (u : Tag) (q : Station) :
    ∃ x1, s.leaveWaitList u q = { s with peers := x1 } :=
  ⟨_, rfl⟩

@[simp] theorem State.leaveWaitList_phase (u : Tag) (q : Station) : (s.leaveWaitList u q).phase = s.phase := by
  obtain ⟨_, h⟩ := State.leaveWaitList_frame s u q; rw [h]
@[simp] theorem State.leaveWaitList_latch (u : Tag) (q : Station) : (s.leaveWaitList u q).latch = s.latch := by
  obtain ⟨_, h⟩ := State.leaveWaitList_frame s u q; rw [h]
@[simp] theorem State.leaveWaitList_station (u : Tag) (q : Station) : (s.leaveWaitList u q).station = s.station := by
  obtain ⟨_, h⟩ := State.leaveWaitList_frame s u q; rw [h]
@[simp] theorem State.leaveWaitList_marks (u : Tag) (q : Station) : (s.leaveWaitList u q).marks = s.marks := by
  obtain ⟨_, h⟩ := State.leaveWaitList_frame s u q; rw [h]
@[simp] theorem State.leaveWaitList_bus (u : Tag) (q : Station) : (s.leaveWaitList u q).bus = s.bus := by
  obtain ⟨_, h⟩ := State.leaveWaitList_frame s u q; rw [h]
@[simp] theorem State.leaveWaitList_changes (u : Tag) (q : Station) : (s.leaveWaitList u q).changes = s.changes := by
  obtain ⟨_, h⟩ := State.leaveWaitList_frame s u q; rw [h]
@[simp] theorem State.leaveWaitList_credit (u : Tag) (q : Station) : (s.leaveWaitList u q).credit = s.credit := by
  obtain ⟨_, h⟩ := State.leaveWaitList_frame s u q; rw [h]
@[simp] theorem State.leaveWaitList_windows (u : Tag) (q : Station) : (s.leaveWaitList u q).windows = s.windows := by
  obtain ⟨_, h⟩ := State.leaveWaitList_frame s u q; rw [h]
@[simp] theorem State.leaveWaitList_inbound (u : Tag) (q : Station) : (s.leaveWaitList u q).inbound = s.inbound := by
  obtain ⟨_, h⟩ := State.leaveWaitList_frame s u q; rw [h]
@[simp] theorem State.leaveWaitList_channels (u : Tag) (q : Station) : (s.leaveWaitList u q).channels = s.channels := by
  obtain ⟨_, h⟩ := State.leaveWaitList_frame s u q; rw [h]
@[simp] theorem State.leaveWaitList_readyList (u : Tag) (q : Station) : (s.leaveWaitList u q).readyList = s.readyList := by
  obtain ⟨_, h⟩ := State.leaveWaitList_frame s u q; rw [h]
@[simp] theorem State.leaveWaitList_entries (u : Tag) (q : Station) : (s.leaveWaitList u q).entries = s.entries := by
  obtain ⟨_, h⟩ := State.leaveWaitList_frame s u q; rw [h]
@[simp] theorem State.leaveWaitList_port (u : Tag) (q : Station) : (s.leaveWaitList u q).port = s.port := by
  obtain ⟨_, h⟩ := State.leaveWaitList_frame s u q; rw [h]
@[simp] theorem State.leaveWaitList_ring (u : Tag) (q : Station) : (s.leaveWaitList u q).ring = s.ring := by
  obtain ⟨_, h⟩ := State.leaveWaitList_frame s u q; rw [h]
@[simp] theorem State.leaveWaitList_host (u : Tag) (q : Station) : (s.leaveWaitList u q).host = s.host := by
  obtain ⟨_, h⟩ := State.leaveWaitList_frame s u q; rw [h]
@[simp] theorem State.leaveWaitList_written (u : Tag) (q : Station) : (s.leaveWaitList u q).written = s.written := by
  obtain ⟨_, h⟩ := State.leaveWaitList_frame s u q; rw [h]
@[simp] theorem State.leaveWaitList_pending (u : Tag) (q : Station) : (s.leaveWaitList u q).pending = s.pending := by
  obtain ⟨_, h⟩ := State.leaveWaitList_frame s u q; rw [h]
@[simp] theorem State.leaveWaitList_entry (u : Tag) (q : Station) (t : Tag) : (s.leaveWaitList u q).entry t = s.entry t := by
  simp [State.entry]
@[simp] theorem State.leaveWaitList_chan (u : Tag) (q : Station) (c : Chan) : (s.leaveWaitList u q).chan c = s.chan c := by
  simp [State.chan]
@[simp] theorem State.leaveWaitList_slot (u : Tag) (q : Station) (i : SlotNo) : (s.leaveWaitList u q).slot i = s.slot i := by
  simp [State.slot]
@[simp] theorem State.leaveWaitList_window (u : Tag) (q : Station) (w : WindowNo) : (s.leaveWaitList u q).window w = s.window w := by
  simp [State.window]
@[simp] theorem State.leaveWaitList_grantCount (u : Tag) (q : Station) (p : Station) : (s.leaveWaitList u q).grantCount p = s.grantCount p := by
  simp [State.grantCount]

/-- What `returnCredit` may write. -/
theorem State.returnCredit_frame (q : Station) :
    ∃ x1, s.returnCredit q = { s with peers := x1 } :=
  ⟨_, rfl⟩

@[simp] theorem State.returnCredit_phase (q : Station) : (s.returnCredit q).phase = s.phase := by
  obtain ⟨_, h⟩ := State.returnCredit_frame s q; rw [h]
@[simp] theorem State.returnCredit_latch (q : Station) : (s.returnCredit q).latch = s.latch := by
  obtain ⟨_, h⟩ := State.returnCredit_frame s q; rw [h]
@[simp] theorem State.returnCredit_station (q : Station) : (s.returnCredit q).station = s.station := by
  obtain ⟨_, h⟩ := State.returnCredit_frame s q; rw [h]
@[simp] theorem State.returnCredit_marks (q : Station) : (s.returnCredit q).marks = s.marks := by
  obtain ⟨_, h⟩ := State.returnCredit_frame s q; rw [h]
@[simp] theorem State.returnCredit_bus (q : Station) : (s.returnCredit q).bus = s.bus := by
  obtain ⟨_, h⟩ := State.returnCredit_frame s q; rw [h]
@[simp] theorem State.returnCredit_changes (q : Station) : (s.returnCredit q).changes = s.changes := by
  obtain ⟨_, h⟩ := State.returnCredit_frame s q; rw [h]
@[simp] theorem State.returnCredit_credit (q : Station) : (s.returnCredit q).credit = s.credit := by
  obtain ⟨_, h⟩ := State.returnCredit_frame s q; rw [h]
@[simp] theorem State.returnCredit_windows (q : Station) : (s.returnCredit q).windows = s.windows := by
  obtain ⟨_, h⟩ := State.returnCredit_frame s q; rw [h]
@[simp] theorem State.returnCredit_inbound (q : Station) : (s.returnCredit q).inbound = s.inbound := by
  obtain ⟨_, h⟩ := State.returnCredit_frame s q; rw [h]
@[simp] theorem State.returnCredit_channels (q : Station) : (s.returnCredit q).channels = s.channels := by
  obtain ⟨_, h⟩ := State.returnCredit_frame s q; rw [h]
@[simp] theorem State.returnCredit_readyList (q : Station) : (s.returnCredit q).readyList = s.readyList := by
  obtain ⟨_, h⟩ := State.returnCredit_frame s q; rw [h]
@[simp] theorem State.returnCredit_entries (q : Station) : (s.returnCredit q).entries = s.entries := by
  obtain ⟨_, h⟩ := State.returnCredit_frame s q; rw [h]
@[simp] theorem State.returnCredit_port (q : Station) : (s.returnCredit q).port = s.port := by
  obtain ⟨_, h⟩ := State.returnCredit_frame s q; rw [h]
@[simp] theorem State.returnCredit_ring (q : Station) : (s.returnCredit q).ring = s.ring := by
  obtain ⟨_, h⟩ := State.returnCredit_frame s q; rw [h]
@[simp] theorem State.returnCredit_host (q : Station) : (s.returnCredit q).host = s.host := by
  obtain ⟨_, h⟩ := State.returnCredit_frame s q; rw [h]
@[simp] theorem State.returnCredit_written (q : Station) : (s.returnCredit q).written = s.written := by
  obtain ⟨_, h⟩ := State.returnCredit_frame s q; rw [h]
@[simp] theorem State.returnCredit_pending (q : Station) : (s.returnCredit q).pending = s.pending := by
  obtain ⟨_, h⟩ := State.returnCredit_frame s q; rw [h]
@[simp] theorem State.returnCredit_entry (q : Station) (t : Tag) : (s.returnCredit q).entry t = s.entry t := by
  simp [State.entry]
@[simp] theorem State.returnCredit_chan (q : Station) (c : Chan) : (s.returnCredit q).chan c = s.chan c := by
  simp [State.chan]
@[simp] theorem State.returnCredit_slot (q : Station) (i : SlotNo) : (s.returnCredit q).slot i = s.slot i := by
  simp [State.slot]
@[simp] theorem State.returnCredit_window (q : Station) (w : WindowNo) : (s.returnCredit q).window w = s.window w := by
  simp [State.window]
@[simp] theorem State.returnCredit_grantCount (q : Station) (p : Station) : (s.returnCredit q).grantCount p = s.grantCount p := by
  simp [State.grantCount]

/-- What `beginFetch` may write. -/
theorem State.beginFetch_frame (d : Chan) (a : Nat) :
    ∃ x1 x2, s.beginFetch d a = { s with channels := x1, port := x2 } :=
  ⟨_, _, rfl⟩

@[simp] theorem State.beginFetch_phase (d : Chan) (a : Nat) : (s.beginFetch d a).phase = s.phase := by
  obtain ⟨_, _, h⟩ := State.beginFetch_frame s d a; rw [h]
@[simp] theorem State.beginFetch_latch (d : Chan) (a : Nat) : (s.beginFetch d a).latch = s.latch := by
  obtain ⟨_, _, h⟩ := State.beginFetch_frame s d a; rw [h]
@[simp] theorem State.beginFetch_station (d : Chan) (a : Nat) : (s.beginFetch d a).station = s.station := by
  obtain ⟨_, _, h⟩ := State.beginFetch_frame s d a; rw [h]
@[simp] theorem State.beginFetch_marks (d : Chan) (a : Nat) : (s.beginFetch d a).marks = s.marks := by
  obtain ⟨_, _, h⟩ := State.beginFetch_frame s d a; rw [h]
@[simp] theorem State.beginFetch_bus (d : Chan) (a : Nat) : (s.beginFetch d a).bus = s.bus := by
  obtain ⟨_, _, h⟩ := State.beginFetch_frame s d a; rw [h]
@[simp] theorem State.beginFetch_peers (d : Chan) (a : Nat) : (s.beginFetch d a).peers = s.peers := by
  obtain ⟨_, _, h⟩ := State.beginFetch_frame s d a; rw [h]
@[simp] theorem State.beginFetch_changes (d : Chan) (a : Nat) : (s.beginFetch d a).changes = s.changes := by
  obtain ⟨_, _, h⟩ := State.beginFetch_frame s d a; rw [h]
@[simp] theorem State.beginFetch_credit (d : Chan) (a : Nat) : (s.beginFetch d a).credit = s.credit := by
  obtain ⟨_, _, h⟩ := State.beginFetch_frame s d a; rw [h]
@[simp] theorem State.beginFetch_windows (d : Chan) (a : Nat) : (s.beginFetch d a).windows = s.windows := by
  obtain ⟨_, _, h⟩ := State.beginFetch_frame s d a; rw [h]
@[simp] theorem State.beginFetch_inbound (d : Chan) (a : Nat) : (s.beginFetch d a).inbound = s.inbound := by
  obtain ⟨_, _, h⟩ := State.beginFetch_frame s d a; rw [h]
@[simp] theorem State.beginFetch_readyList (d : Chan) (a : Nat) : (s.beginFetch d a).readyList = s.readyList := by
  obtain ⟨_, _, h⟩ := State.beginFetch_frame s d a; rw [h]
@[simp] theorem State.beginFetch_entries (d : Chan) (a : Nat) : (s.beginFetch d a).entries = s.entries := by
  obtain ⟨_, _, h⟩ := State.beginFetch_frame s d a; rw [h]
@[simp] theorem State.beginFetch_ring (d : Chan) (a : Nat) : (s.beginFetch d a).ring = s.ring := by
  obtain ⟨_, _, h⟩ := State.beginFetch_frame s d a; rw [h]
@[simp] theorem State.beginFetch_host (d : Chan) (a : Nat) : (s.beginFetch d a).host = s.host := by
  obtain ⟨_, _, h⟩ := State.beginFetch_frame s d a; rw [h]
@[simp] theorem State.beginFetch_written (d : Chan) (a : Nat) : (s.beginFetch d a).written = s.written := by
  obtain ⟨_, _, h⟩ := State.beginFetch_frame s d a; rw [h]
@[simp] theorem State.beginFetch_pending (d : Chan) (a : Nat) : (s.beginFetch d a).pending = s.pending := by
  obtain ⟨_, _, h⟩ := State.beginFetch_frame s d a; rw [h]
@[simp] theorem State.beginFetch_peer (d : Chan) (a : Nat) (p : Station) : (s.beginFetch d a).peer p = s.peer p := by
  simp [State.peer]
@[simp] theorem State.beginFetch_entry (d : Chan) (a : Nat) (t : Tag) : (s.beginFetch d a).entry t = s.entry t := by
  simp [State.entry]
@[simp] theorem State.beginFetch_slot (d : Chan) (a : Nat) (i : SlotNo) : (s.beginFetch d a).slot i = s.slot i := by
  simp [State.slot]
@[simp] theorem State.beginFetch_window (d : Chan) (a : Nat) (w : WindowNo) : (s.beginFetch d a).window w = s.window w := by
  simp [State.window]
@[simp] theorem State.beginFetch_grantCount (d : Chan) (a : Nat) (p : Station) : (s.beginFetch d a).grantCount p = s.grantCount p := by
  simp [State.grantCount]

/-- What `chainOrIdle` may write. -/
theorem State.chainOrIdle_frame (d : Chan) (chains : Bool) (a : Nat) :
    ∃ x1 x2, s.chainOrIdle d chains a = { s with channels := x1, port := x2 } := by
  cases chains
  · exact ⟨_, _, rfl⟩
  · exact ⟨_, _, rfl⟩

@[simp] theorem State.chainOrIdle_phase (d : Chan) (chains : Bool) (a : Nat) : (s.chainOrIdle d chains a).phase = s.phase := by
  obtain ⟨_, _, h⟩ := State.chainOrIdle_frame s d chains a; rw [h]
@[simp] theorem State.chainOrIdle_latch (d : Chan) (chains : Bool) (a : Nat) : (s.chainOrIdle d chains a).latch = s.latch := by
  obtain ⟨_, _, h⟩ := State.chainOrIdle_frame s d chains a; rw [h]
@[simp] theorem State.chainOrIdle_station (d : Chan) (chains : Bool) (a : Nat) : (s.chainOrIdle d chains a).station = s.station := by
  obtain ⟨_, _, h⟩ := State.chainOrIdle_frame s d chains a; rw [h]
@[simp] theorem State.chainOrIdle_marks (d : Chan) (chains : Bool) (a : Nat) : (s.chainOrIdle d chains a).marks = s.marks := by
  obtain ⟨_, _, h⟩ := State.chainOrIdle_frame s d chains a; rw [h]
@[simp] theorem State.chainOrIdle_bus (d : Chan) (chains : Bool) (a : Nat) : (s.chainOrIdle d chains a).bus = s.bus := by
  obtain ⟨_, _, h⟩ := State.chainOrIdle_frame s d chains a; rw [h]
@[simp] theorem State.chainOrIdle_peers (d : Chan) (chains : Bool) (a : Nat) : (s.chainOrIdle d chains a).peers = s.peers := by
  obtain ⟨_, _, h⟩ := State.chainOrIdle_frame s d chains a; rw [h]
@[simp] theorem State.chainOrIdle_changes (d : Chan) (chains : Bool) (a : Nat) : (s.chainOrIdle d chains a).changes = s.changes := by
  obtain ⟨_, _, h⟩ := State.chainOrIdle_frame s d chains a; rw [h]
@[simp] theorem State.chainOrIdle_credit (d : Chan) (chains : Bool) (a : Nat) : (s.chainOrIdle d chains a).credit = s.credit := by
  obtain ⟨_, _, h⟩ := State.chainOrIdle_frame s d chains a; rw [h]
@[simp] theorem State.chainOrIdle_windows (d : Chan) (chains : Bool) (a : Nat) : (s.chainOrIdle d chains a).windows = s.windows := by
  obtain ⟨_, _, h⟩ := State.chainOrIdle_frame s d chains a; rw [h]
@[simp] theorem State.chainOrIdle_inbound (d : Chan) (chains : Bool) (a : Nat) : (s.chainOrIdle d chains a).inbound = s.inbound := by
  obtain ⟨_, _, h⟩ := State.chainOrIdle_frame s d chains a; rw [h]
@[simp] theorem State.chainOrIdle_readyList (d : Chan) (chains : Bool) (a : Nat) : (s.chainOrIdle d chains a).readyList = s.readyList := by
  obtain ⟨_, _, h⟩ := State.chainOrIdle_frame s d chains a; rw [h]
@[simp] theorem State.chainOrIdle_entries (d : Chan) (chains : Bool) (a : Nat) : (s.chainOrIdle d chains a).entries = s.entries := by
  obtain ⟨_, _, h⟩ := State.chainOrIdle_frame s d chains a; rw [h]
@[simp] theorem State.chainOrIdle_ring (d : Chan) (chains : Bool) (a : Nat) : (s.chainOrIdle d chains a).ring = s.ring := by
  obtain ⟨_, _, h⟩ := State.chainOrIdle_frame s d chains a; rw [h]
@[simp] theorem State.chainOrIdle_host (d : Chan) (chains : Bool) (a : Nat) : (s.chainOrIdle d chains a).host = s.host := by
  obtain ⟨_, _, h⟩ := State.chainOrIdle_frame s d chains a; rw [h]
@[simp] theorem State.chainOrIdle_written (d : Chan) (chains : Bool) (a : Nat) : (s.chainOrIdle d chains a).written = s.written := by
  obtain ⟨_, _, h⟩ := State.chainOrIdle_frame s d chains a; rw [h]
@[simp] theorem State.chainOrIdle_pending (d : Chan) (chains : Bool) (a : Nat) : (s.chainOrIdle d chains a).pending = s.pending := by
  obtain ⟨_, _, h⟩ := State.chainOrIdle_frame s d chains a; rw [h]
@[simp] theorem State.chainOrIdle_peer (d : Chan) (chains : Bool) (a : Nat) (p : Station) : (s.chainOrIdle d chains a).peer p = s.peer p := by
  simp [State.peer]
@[simp] theorem State.chainOrIdle_entry (d : Chan) (chains : Bool) (a : Nat) (t : Tag) : (s.chainOrIdle d chains a).entry t = s.entry t := by
  simp [State.entry]
@[simp] theorem State.chainOrIdle_slot (d : Chan) (chains : Bool) (a : Nat) (i : SlotNo) : (s.chainOrIdle d chains a).slot i = s.slot i := by
  simp [State.slot]
@[simp] theorem State.chainOrIdle_window (d : Chan) (chains : Bool) (a : Nat) (w : WindowNo) : (s.chainOrIdle d chains a).window w = s.window w := by
  simp [State.window]
@[simp] theorem State.chainOrIdle_grantCount (d : Chan) (chains : Bool) (a : Nat) (p : Station) : (s.chainOrIdle d chains a).grantCount p = s.grantCount p := by
  simp [State.grantCount]

/-- What `leaveCompleting` may write. -/
theorem State.leaveCompleting_frame (d : Chan) :
    ∃ x1 x2 x3 x4, s.leaveCompleting d = { s with channels := x1, port := x2, marks := x3, bus := x4 } := by
  simp only [State.leaveCompleting]
  split
  · split
    · obtain ⟨b, m, h⟩ := State.advanceMark_frame (s.modChan d Channel.outOfCompleting)
      obtain ⟨ch, p, h'⟩ := State.chainOrIdle_frame (s.modChan d Channel.outOfCompleting).advanceMark d
        (descChain (s.chan d).desc && !(s.chan d).chainCancelled) (descNext (s.chan d).desc)
      exact ⟨ch, p, m, b, by rw [h', h]; rfl⟩
    · obtain ⟨ch, p, h'⟩ := State.chainOrIdle_frame (s.modChan d Channel.outOfCompleting) d
        (descChain (s.chan d).desc && !(s.chan d).chainCancelled) (descNext (s.chan d).desc)
      exact ⟨ch, p, s.marks, s.bus, by rw [h']; rfl⟩
  · obtain ⟨ch, p, h'⟩ := State.chainOrIdle_frame (s.modChan d Channel.outOfCompleting) d
      (descChain (s.chan d).desc && !(s.chan d).chainCancelled) (descNext (s.chan d).desc)
    exact ⟨ch, p, s.marks, s.bus, by rw [h']; rfl⟩
  · exact ⟨_, _, _, _, rfl⟩
  · exact ⟨_, _, _, _, rfl⟩
  · exact ⟨_, _, _, _, rfl⟩

@[simp] theorem State.leaveCompleting_phase (d : Chan) : (s.leaveCompleting d).phase = s.phase := by
  obtain ⟨_, _, _, _, h⟩ := State.leaveCompleting_frame s d; rw [h]
@[simp] theorem State.leaveCompleting_latch (d : Chan) : (s.leaveCompleting d).latch = s.latch := by
  obtain ⟨_, _, _, _, h⟩ := State.leaveCompleting_frame s d; rw [h]
@[simp] theorem State.leaveCompleting_station (d : Chan) : (s.leaveCompleting d).station = s.station := by
  obtain ⟨_, _, _, _, h⟩ := State.leaveCompleting_frame s d; rw [h]
@[simp] theorem State.leaveCompleting_peers (d : Chan) : (s.leaveCompleting d).peers = s.peers := by
  obtain ⟨_, _, _, _, h⟩ := State.leaveCompleting_frame s d; rw [h]
@[simp] theorem State.leaveCompleting_changes (d : Chan) : (s.leaveCompleting d).changes = s.changes := by
  obtain ⟨_, _, _, _, h⟩ := State.leaveCompleting_frame s d; rw [h]
@[simp] theorem State.leaveCompleting_credit (d : Chan) : (s.leaveCompleting d).credit = s.credit := by
  obtain ⟨_, _, _, _, h⟩ := State.leaveCompleting_frame s d; rw [h]
@[simp] theorem State.leaveCompleting_windows (d : Chan) : (s.leaveCompleting d).windows = s.windows := by
  obtain ⟨_, _, _, _, h⟩ := State.leaveCompleting_frame s d; rw [h]
@[simp] theorem State.leaveCompleting_inbound (d : Chan) : (s.leaveCompleting d).inbound = s.inbound := by
  obtain ⟨_, _, _, _, h⟩ := State.leaveCompleting_frame s d; rw [h]
@[simp] theorem State.leaveCompleting_readyList (d : Chan) : (s.leaveCompleting d).readyList = s.readyList := by
  obtain ⟨_, _, _, _, h⟩ := State.leaveCompleting_frame s d; rw [h]
@[simp] theorem State.leaveCompleting_entries (d : Chan) : (s.leaveCompleting d).entries = s.entries := by
  obtain ⟨_, _, _, _, h⟩ := State.leaveCompleting_frame s d; rw [h]
@[simp] theorem State.leaveCompleting_ring (d : Chan) : (s.leaveCompleting d).ring = s.ring := by
  obtain ⟨_, _, _, _, h⟩ := State.leaveCompleting_frame s d; rw [h]
@[simp] theorem State.leaveCompleting_host (d : Chan) : (s.leaveCompleting d).host = s.host := by
  obtain ⟨_, _, _, _, h⟩ := State.leaveCompleting_frame s d; rw [h]
@[simp] theorem State.leaveCompleting_written (d : Chan) : (s.leaveCompleting d).written = s.written := by
  obtain ⟨_, _, _, _, h⟩ := State.leaveCompleting_frame s d; rw [h]
@[simp] theorem State.leaveCompleting_pending (d : Chan) : (s.leaveCompleting d).pending = s.pending := by
  obtain ⟨_, _, _, _, h⟩ := State.leaveCompleting_frame s d; rw [h]
@[simp] theorem State.leaveCompleting_peer (d : Chan) (p : Station) : (s.leaveCompleting d).peer p = s.peer p := by
  simp [State.peer]
@[simp] theorem State.leaveCompleting_entry (d : Chan) (t : Tag) : (s.leaveCompleting d).entry t = s.entry t := by
  simp [State.entry]
@[simp] theorem State.leaveCompleting_slot (d : Chan) (i : SlotNo) : (s.leaveCompleting d).slot i = s.slot i := by
  simp [State.slot]
@[simp] theorem State.leaveCompleting_window (d : Chan) (w : WindowNo) : (s.leaveCompleting d).window w = s.window w := by
  simp [State.window]
@[simp] theorem State.leaveCompleting_grantCount (d : Chan) (p : Station) : (s.leaveCompleting d).grantCount p = s.grantCount p := by
  simp [State.grantCount]

/-- What `testRecordWrite` may write. -/
theorem State.testRecordWrite_frame :
    ∃ x1 x2, s.testRecordWrite = { s with ring := x1, port := x2 } := by
  unfold State.testRecordWrite State.recordWriteIssue
  split
  · split
    · split
      · exact ⟨_, _, rfl⟩
      · exact ⟨_, _, rfl⟩
    · exact ⟨_, _, rfl⟩
  · exact ⟨_, _, rfl⟩

@[simp] theorem State.testRecordWrite_phase : s.testRecordWrite.phase = s.phase := by
  obtain ⟨_, _, h⟩ := State.testRecordWrite_frame s; rw [h]
@[simp] theorem State.testRecordWrite_latch : s.testRecordWrite.latch = s.latch := by
  obtain ⟨_, _, h⟩ := State.testRecordWrite_frame s; rw [h]
@[simp] theorem State.testRecordWrite_station : s.testRecordWrite.station = s.station := by
  obtain ⟨_, _, h⟩ := State.testRecordWrite_frame s; rw [h]
@[simp] theorem State.testRecordWrite_marks : s.testRecordWrite.marks = s.marks := by
  obtain ⟨_, _, h⟩ := State.testRecordWrite_frame s; rw [h]
@[simp] theorem State.testRecordWrite_bus : s.testRecordWrite.bus = s.bus := by
  obtain ⟨_, _, h⟩ := State.testRecordWrite_frame s; rw [h]
@[simp] theorem State.testRecordWrite_peers : s.testRecordWrite.peers = s.peers := by
  obtain ⟨_, _, h⟩ := State.testRecordWrite_frame s; rw [h]
@[simp] theorem State.testRecordWrite_changes : s.testRecordWrite.changes = s.changes := by
  obtain ⟨_, _, h⟩ := State.testRecordWrite_frame s; rw [h]
@[simp] theorem State.testRecordWrite_credit : s.testRecordWrite.credit = s.credit := by
  obtain ⟨_, _, h⟩ := State.testRecordWrite_frame s; rw [h]
@[simp] theorem State.testRecordWrite_windows : s.testRecordWrite.windows = s.windows := by
  obtain ⟨_, _, h⟩ := State.testRecordWrite_frame s; rw [h]
@[simp] theorem State.testRecordWrite_inbound : s.testRecordWrite.inbound = s.inbound := by
  obtain ⟨_, _, h⟩ := State.testRecordWrite_frame s; rw [h]
@[simp] theorem State.testRecordWrite_channels : s.testRecordWrite.channels = s.channels := by
  obtain ⟨_, _, h⟩ := State.testRecordWrite_frame s; rw [h]
@[simp] theorem State.testRecordWrite_readyList : s.testRecordWrite.readyList = s.readyList := by
  obtain ⟨_, _, h⟩ := State.testRecordWrite_frame s; rw [h]
@[simp] theorem State.testRecordWrite_entries : s.testRecordWrite.entries = s.entries := by
  obtain ⟨_, _, h⟩ := State.testRecordWrite_frame s; rw [h]
@[simp] theorem State.testRecordWrite_host : s.testRecordWrite.host = s.host := by
  obtain ⟨_, _, h⟩ := State.testRecordWrite_frame s; rw [h]
@[simp] theorem State.testRecordWrite_written : s.testRecordWrite.written = s.written := by
  obtain ⟨_, _, h⟩ := State.testRecordWrite_frame s; rw [h]
@[simp] theorem State.testRecordWrite_pending : s.testRecordWrite.pending = s.pending := by
  obtain ⟨_, _, h⟩ := State.testRecordWrite_frame s; rw [h]
@[simp] theorem State.testRecordWrite_peer (p : Station) : s.testRecordWrite.peer p = s.peer p := by
  simp [State.peer]
@[simp] theorem State.testRecordWrite_entry (t : Tag) : s.testRecordWrite.entry t = s.entry t := by
  simp [State.entry]
@[simp] theorem State.testRecordWrite_chan (c : Chan) : s.testRecordWrite.chan c = s.chan c := by
  simp [State.chan]
@[simp] theorem State.testRecordWrite_slot (i : SlotNo) : s.testRecordWrite.slot i = s.slot i := by
  simp [State.slot]
@[simp] theorem State.testRecordWrite_window (w : WindowNo) : s.testRecordWrite.window w = s.window w := by
  simp [State.window]
@[simp] theorem State.testRecordWrite_grantCount (p : Station) : s.testRecordWrite.grantCount p = s.grantCount p := by
  simp [State.grantCount]

/-- What `complete` may write. -/
theorem State.complete_frame (d : Chan) (st : PendingStatus) :
    ∃ x1 x2 x3 x4 x5, s.complete d st = { s with channels := x1, port := x2, marks := x3, bus := x4, ring := x5 } := by
  simp only [State.complete]
  split
  · have key (u : State) : ∃ r p, u.testRecordWrite = { u with ring := r, port := p } := State.testRecordWrite_frame u
    obtain ⟨r, p, h⟩ := key _
    exact ⟨_, p, _, _, r, h⟩
  · have key (x : Channel) : ∃ ch p m b, (s.setChan d x).leaveCompleting d =
        { s with channels := ch, port := p, marks := m, bus := b, ring := s.ring } := by
      obtain ⟨ch, p, m, b, h⟩ := State.leaveCompleting_frame (s.setChan d x) d
      exact ⟨ch, p, m, b, h⟩
    obtain ⟨ch, p, m, b, h⟩ := key _
    exact ⟨ch, p, m, b, _, h⟩

@[simp] theorem State.complete_phase (d : Chan) (st : PendingStatus) : (s.complete d st).phase = s.phase := by
  obtain ⟨_, _, _, _, _, h⟩ := State.complete_frame s d st; rw [h]
@[simp] theorem State.complete_latch (d : Chan) (st : PendingStatus) : (s.complete d st).latch = s.latch := by
  obtain ⟨_, _, _, _, _, h⟩ := State.complete_frame s d st; rw [h]
@[simp] theorem State.complete_station (d : Chan) (st : PendingStatus) : (s.complete d st).station = s.station := by
  obtain ⟨_, _, _, _, _, h⟩ := State.complete_frame s d st; rw [h]
@[simp] theorem State.complete_peers (d : Chan) (st : PendingStatus) : (s.complete d st).peers = s.peers := by
  obtain ⟨_, _, _, _, _, h⟩ := State.complete_frame s d st; rw [h]
@[simp] theorem State.complete_changes (d : Chan) (st : PendingStatus) : (s.complete d st).changes = s.changes := by
  obtain ⟨_, _, _, _, _, h⟩ := State.complete_frame s d st; rw [h]
@[simp] theorem State.complete_credit (d : Chan) (st : PendingStatus) : (s.complete d st).credit = s.credit := by
  obtain ⟨_, _, _, _, _, h⟩ := State.complete_frame s d st; rw [h]
@[simp] theorem State.complete_windows (d : Chan) (st : PendingStatus) : (s.complete d st).windows = s.windows := by
  obtain ⟨_, _, _, _, _, h⟩ := State.complete_frame s d st; rw [h]
@[simp] theorem State.complete_inbound (d : Chan) (st : PendingStatus) : (s.complete d st).inbound = s.inbound := by
  obtain ⟨_, _, _, _, _, h⟩ := State.complete_frame s d st; rw [h]
@[simp] theorem State.complete_readyList (d : Chan) (st : PendingStatus) : (s.complete d st).readyList = s.readyList := by
  obtain ⟨_, _, _, _, _, h⟩ := State.complete_frame s d st; rw [h]
@[simp] theorem State.complete_entries (d : Chan) (st : PendingStatus) : (s.complete d st).entries = s.entries := by
  obtain ⟨_, _, _, _, _, h⟩ := State.complete_frame s d st; rw [h]
@[simp] theorem State.complete_host (d : Chan) (st : PendingStatus) : (s.complete d st).host = s.host := by
  obtain ⟨_, _, _, _, _, h⟩ := State.complete_frame s d st; rw [h]
@[simp] theorem State.complete_written (d : Chan) (st : PendingStatus) : (s.complete d st).written = s.written := by
  obtain ⟨_, _, _, _, _, h⟩ := State.complete_frame s d st; rw [h]
@[simp] theorem State.complete_pending (d : Chan) (st : PendingStatus) : (s.complete d st).pending = s.pending := by
  obtain ⟨_, _, _, _, _, h⟩ := State.complete_frame s d st; rw [h]
@[simp] theorem State.complete_peer (d : Chan) (st : PendingStatus) (p : Station) : (s.complete d st).peer p = s.peer p := by
  simp [State.peer]
@[simp] theorem State.complete_entry (d : Chan) (st : PendingStatus) (t : Tag) : (s.complete d st).entry t = s.entry t := by
  simp [State.entry]
@[simp] theorem State.complete_slot (d : Chan) (st : PendingStatus) (i : SlotNo) : (s.complete d st).slot i = s.slot i := by
  simp [State.slot]
@[simp] theorem State.complete_window (d : Chan) (st : PendingStatus) (w : WindowNo) : (s.complete d st).window w = s.window w := by
  simp [State.window]
@[simp] theorem State.complete_grantCount (d : Chan) (st : PendingStatus) (p : Station) : (s.complete d st).grantCount p = s.grantCount p := by
  simp [State.grantCount]

/-- What `failChannel` may write. -/
theorem State.failChannel_frame (d : Chan) (code : FaultCode) (q : Option Station) :
    ∃ x1 x2 x3 x4 x5, s.failChannel d code q = { s with channels := x1, port := x2, marks := x3, bus := x4, ring := x5 } := by
  obtain ⟨ch, p, m, b, r, h⟩ := State.complete_frame
    (s.modChan d fun ch => { Channel.channelFault ch code q with waitTimer := .stopped }) d .faulted
  exact ⟨ch, p, m, b, r, h⟩

@[simp] theorem State.failChannel_phase (d : Chan) (code : FaultCode) (q : Option Station) : (s.failChannel d code q).phase = s.phase := by
  obtain ⟨_, _, _, _, _, h⟩ := State.failChannel_frame s d code q; rw [h]
@[simp] theorem State.failChannel_latch (d : Chan) (code : FaultCode) (q : Option Station) : (s.failChannel d code q).latch = s.latch := by
  obtain ⟨_, _, _, _, _, h⟩ := State.failChannel_frame s d code q; rw [h]
@[simp] theorem State.failChannel_station (d : Chan) (code : FaultCode) (q : Option Station) : (s.failChannel d code q).station = s.station := by
  obtain ⟨_, _, _, _, _, h⟩ := State.failChannel_frame s d code q; rw [h]
@[simp] theorem State.failChannel_peers (d : Chan) (code : FaultCode) (q : Option Station) : (s.failChannel d code q).peers = s.peers := by
  obtain ⟨_, _, _, _, _, h⟩ := State.failChannel_frame s d code q; rw [h]
@[simp] theorem State.failChannel_changes (d : Chan) (code : FaultCode) (q : Option Station) : (s.failChannel d code q).changes = s.changes := by
  obtain ⟨_, _, _, _, _, h⟩ := State.failChannel_frame s d code q; rw [h]
@[simp] theorem State.failChannel_credit (d : Chan) (code : FaultCode) (q : Option Station) : (s.failChannel d code q).credit = s.credit := by
  obtain ⟨_, _, _, _, _, h⟩ := State.failChannel_frame s d code q; rw [h]
@[simp] theorem State.failChannel_windows (d : Chan) (code : FaultCode) (q : Option Station) : (s.failChannel d code q).windows = s.windows := by
  obtain ⟨_, _, _, _, _, h⟩ := State.failChannel_frame s d code q; rw [h]
@[simp] theorem State.failChannel_inbound (d : Chan) (code : FaultCode) (q : Option Station) : (s.failChannel d code q).inbound = s.inbound := by
  obtain ⟨_, _, _, _, _, h⟩ := State.failChannel_frame s d code q; rw [h]
@[simp] theorem State.failChannel_readyList (d : Chan) (code : FaultCode) (q : Option Station) : (s.failChannel d code q).readyList = s.readyList := by
  obtain ⟨_, _, _, _, _, h⟩ := State.failChannel_frame s d code q; rw [h]
@[simp] theorem State.failChannel_entries (d : Chan) (code : FaultCode) (q : Option Station) : (s.failChannel d code q).entries = s.entries := by
  obtain ⟨_, _, _, _, _, h⟩ := State.failChannel_frame s d code q; rw [h]
@[simp] theorem State.failChannel_host (d : Chan) (code : FaultCode) (q : Option Station) : (s.failChannel d code q).host = s.host := by
  obtain ⟨_, _, _, _, _, h⟩ := State.failChannel_frame s d code q; rw [h]
@[simp] theorem State.failChannel_written (d : Chan) (code : FaultCode) (q : Option Station) : (s.failChannel d code q).written = s.written := by
  obtain ⟨_, _, _, _, _, h⟩ := State.failChannel_frame s d code q; rw [h]
@[simp] theorem State.failChannel_pending (d : Chan) (code : FaultCode) (q : Option Station) : (s.failChannel d code q).pending = s.pending := by
  obtain ⟨_, _, _, _, _, h⟩ := State.failChannel_frame s d code q; rw [h]
@[simp] theorem State.failChannel_peer (d : Chan) (code : FaultCode) (q : Option Station) (p : Station) : (s.failChannel d code q).peer p = s.peer p := by
  simp [State.peer]
@[simp] theorem State.failChannel_entry (d : Chan) (code : FaultCode) (q : Option Station) (t : Tag) : (s.failChannel d code q).entry t = s.entry t := by
  simp [State.entry]
@[simp] theorem State.failChannel_slot (d : Chan) (code : FaultCode) (q : Option Station) (i : SlotNo) : (s.failChannel d code q).slot i = s.slot i := by
  simp [State.slot]
@[simp] theorem State.failChannel_window (d : Chan) (code : FaultCode) (q : Option Station) (w : WindowNo) : (s.failChannel d code q).window w = s.window w := by
  simp [State.window]
@[simp] theorem State.failChannel_grantCount (d : Chan) (code : FaultCode) (q : Option Station) (p : Station) : (s.failChannel d code q).grantCount p = s.grantCount p := by
  simp [State.grantCount]

/-- What `waitSatisfied` may write. -/
theorem State.waitSatisfied_frame (d : Chan) :
    ∃ x1 x2 x3 x4 x5, s.waitSatisfied d = { s with channels := x1, port := x2, marks := x3, bus := x4, ring := x5 } := by
  obtain ⟨ch, p, m, b, r, h⟩ := State.complete_frame
    ((s.setWait d none).modChan d fun ch => { ch with waitTimer := .stopped }) d .done
  exact ⟨ch, p, m, b, r, h⟩

@[simp] theorem State.waitSatisfied_phase (d : Chan) : (s.waitSatisfied d).phase = s.phase := by
  obtain ⟨_, _, _, _, _, h⟩ := State.waitSatisfied_frame s d; rw [h]
@[simp] theorem State.waitSatisfied_latch (d : Chan) : (s.waitSatisfied d).latch = s.latch := by
  obtain ⟨_, _, _, _, _, h⟩ := State.waitSatisfied_frame s d; rw [h]
@[simp] theorem State.waitSatisfied_station (d : Chan) : (s.waitSatisfied d).station = s.station := by
  obtain ⟨_, _, _, _, _, h⟩ := State.waitSatisfied_frame s d; rw [h]
@[simp] theorem State.waitSatisfied_peers (d : Chan) : (s.waitSatisfied d).peers = s.peers := by
  obtain ⟨_, _, _, _, _, h⟩ := State.waitSatisfied_frame s d; rw [h]
@[simp] theorem State.waitSatisfied_changes (d : Chan) : (s.waitSatisfied d).changes = s.changes := by
  obtain ⟨_, _, _, _, _, h⟩ := State.waitSatisfied_frame s d; rw [h]
@[simp] theorem State.waitSatisfied_credit (d : Chan) : (s.waitSatisfied d).credit = s.credit := by
  obtain ⟨_, _, _, _, _, h⟩ := State.waitSatisfied_frame s d; rw [h]
@[simp] theorem State.waitSatisfied_windows (d : Chan) : (s.waitSatisfied d).windows = s.windows := by
  obtain ⟨_, _, _, _, _, h⟩ := State.waitSatisfied_frame s d; rw [h]
@[simp] theorem State.waitSatisfied_inbound (d : Chan) : (s.waitSatisfied d).inbound = s.inbound := by
  obtain ⟨_, _, _, _, _, h⟩ := State.waitSatisfied_frame s d; rw [h]
@[simp] theorem State.waitSatisfied_readyList (d : Chan) : (s.waitSatisfied d).readyList = s.readyList := by
  obtain ⟨_, _, _, _, _, h⟩ := State.waitSatisfied_frame s d; rw [h]
@[simp] theorem State.waitSatisfied_entries (d : Chan) : (s.waitSatisfied d).entries = s.entries := by
  obtain ⟨_, _, _, _, _, h⟩ := State.waitSatisfied_frame s d; rw [h]
@[simp] theorem State.waitSatisfied_host (d : Chan) : (s.waitSatisfied d).host = s.host := by
  obtain ⟨_, _, _, _, _, h⟩ := State.waitSatisfied_frame s d; rw [h]
@[simp] theorem State.waitSatisfied_written (d : Chan) : (s.waitSatisfied d).written = s.written := by
  obtain ⟨_, _, _, _, _, h⟩ := State.waitSatisfied_frame s d; rw [h]
@[simp] theorem State.waitSatisfied_pending (d : Chan) : (s.waitSatisfied d).pending = s.pending := by
  obtain ⟨_, _, _, _, _, h⟩ := State.waitSatisfied_frame s d; rw [h]
@[simp] theorem State.waitSatisfied_peer (d : Chan) (p : Station) : (s.waitSatisfied d).peer p = s.peer p := by
  simp [State.peer]
@[simp] theorem State.waitSatisfied_entry (d : Chan) (t : Tag) : (s.waitSatisfied d).entry t = s.entry t := by
  simp [State.entry]
@[simp] theorem State.waitSatisfied_slot (d : Chan) (i : SlotNo) : (s.waitSatisfied d).slot i = s.slot i := by
  simp [State.slot]
@[simp] theorem State.waitSatisfied_window (d : Chan) (w : WindowNo) : (s.waitSatisfied d).window w = s.window w := by
  simp [State.window]
@[simp] theorem State.waitSatisfied_grantCount (d : Chan) (p : Station) : (s.waitSatisfied d).grantCount p = s.grantCount p := by
  simp [State.grantCount]

/-- What `waitLost` may write. -/
theorem State.waitLost_frame (d : Chan) (q : Station) :
    ∃ x1 x2 x3 x4 x5, s.waitLost d q = { s with channels := x1, port := x2, marks := x3, bus := x4, ring := x5 } := by
  obtain ⟨ch, p, m, b, r, h⟩ := State.failChannel_frame (s.setWait d none) d .peerLost (some q)
  exact ⟨ch, p, m, b, r, h⟩

@[simp] theorem State.waitLost_phase (d : Chan) (q : Station) : (s.waitLost d q).phase = s.phase := by
  obtain ⟨_, _, _, _, _, h⟩ := State.waitLost_frame s d q; rw [h]
@[simp] theorem State.waitLost_latch (d : Chan) (q : Station) : (s.waitLost d q).latch = s.latch := by
  obtain ⟨_, _, _, _, _, h⟩ := State.waitLost_frame s d q; rw [h]
@[simp] theorem State.waitLost_station (d : Chan) (q : Station) : (s.waitLost d q).station = s.station := by
  obtain ⟨_, _, _, _, _, h⟩ := State.waitLost_frame s d q; rw [h]
@[simp] theorem State.waitLost_peers (d : Chan) (q : Station) : (s.waitLost d q).peers = s.peers := by
  obtain ⟨_, _, _, _, _, h⟩ := State.waitLost_frame s d q; rw [h]
@[simp] theorem State.waitLost_changes (d : Chan) (q : Station) : (s.waitLost d q).changes = s.changes := by
  obtain ⟨_, _, _, _, _, h⟩ := State.waitLost_frame s d q; rw [h]
@[simp] theorem State.waitLost_credit (d : Chan) (q : Station) : (s.waitLost d q).credit = s.credit := by
  obtain ⟨_, _, _, _, _, h⟩ := State.waitLost_frame s d q; rw [h]
@[simp] theorem State.waitLost_windows (d : Chan) (q : Station) : (s.waitLost d q).windows = s.windows := by
  obtain ⟨_, _, _, _, _, h⟩ := State.waitLost_frame s d q; rw [h]
@[simp] theorem State.waitLost_inbound (d : Chan) (q : Station) : (s.waitLost d q).inbound = s.inbound := by
  obtain ⟨_, _, _, _, _, h⟩ := State.waitLost_frame s d q; rw [h]
@[simp] theorem State.waitLost_readyList (d : Chan) (q : Station) : (s.waitLost d q).readyList = s.readyList := by
  obtain ⟨_, _, _, _, _, h⟩ := State.waitLost_frame s d q; rw [h]
@[simp] theorem State.waitLost_entries (d : Chan) (q : Station) : (s.waitLost d q).entries = s.entries := by
  obtain ⟨_, _, _, _, _, h⟩ := State.waitLost_frame s d q; rw [h]
@[simp] theorem State.waitLost_host (d : Chan) (q : Station) : (s.waitLost d q).host = s.host := by
  obtain ⟨_, _, _, _, _, h⟩ := State.waitLost_frame s d q; rw [h]
@[simp] theorem State.waitLost_written (d : Chan) (q : Station) : (s.waitLost d q).written = s.written := by
  obtain ⟨_, _, _, _, _, h⟩ := State.waitLost_frame s d q; rw [h]
@[simp] theorem State.waitLost_pending (d : Chan) (q : Station) : (s.waitLost d q).pending = s.pending := by
  obtain ⟨_, _, _, _, _, h⟩ := State.waitLost_frame s d q; rw [h]
@[simp] theorem State.waitLost_peer (d : Chan) (q : Station) (p : Station) : (s.waitLost d q).peer p = s.peer p := by
  simp [State.peer]
@[simp] theorem State.waitLost_entry (d : Chan) (q : Station) (t : Tag) : (s.waitLost d q).entry t = s.entry t := by
  simp [State.entry]
@[simp] theorem State.waitLost_slot (d : Chan) (q : Station) (i : SlotNo) : (s.waitLost d q).slot i = s.slot i := by
  simp [State.slot]
@[simp] theorem State.waitLost_window (d : Chan) (q : Station) (w : WindowNo) : (s.waitLost d q).window w = s.window w := by
  simp [State.window]
@[simp] theorem State.waitLost_grantCount (d : Chan) (q : Station) (p : Station) : (s.waitLost d q).grantCount p = s.grantCount p := by
  simp [State.grantCount]

/-- What `takeReport` may write. -/
theorem State.takeReport_frame (d : Chan) (r : WaitReport) :
    ∃ x1 x2 x3 x4 x5, s.takeReport d r = { s with channels := x1, port := x2, marks := x3, bus := x4, ring := x5 } := by
  cases r with
  | satisfied => exact State.waitSatisfied_frame s d
  | lost q => exact State.waitLost_frame s d q
  | still => exact ⟨_, _, _, _, _, rfl⟩

@[simp] theorem State.takeReport_phase (d : Chan) (r : WaitReport) : (s.takeReport d r).phase = s.phase := by
  obtain ⟨_, _, _, _, _, h⟩ := State.takeReport_frame s d r; rw [h]
@[simp] theorem State.takeReport_latch (d : Chan) (r : WaitReport) : (s.takeReport d r).latch = s.latch := by
  obtain ⟨_, _, _, _, _, h⟩ := State.takeReport_frame s d r; rw [h]
@[simp] theorem State.takeReport_station (d : Chan) (r : WaitReport) : (s.takeReport d r).station = s.station := by
  obtain ⟨_, _, _, _, _, h⟩ := State.takeReport_frame s d r; rw [h]
@[simp] theorem State.takeReport_peers (d : Chan) (r : WaitReport) : (s.takeReport d r).peers = s.peers := by
  obtain ⟨_, _, _, _, _, h⟩ := State.takeReport_frame s d r; rw [h]
@[simp] theorem State.takeReport_changes (d : Chan) (r : WaitReport) : (s.takeReport d r).changes = s.changes := by
  obtain ⟨_, _, _, _, _, h⟩ := State.takeReport_frame s d r; rw [h]
@[simp] theorem State.takeReport_credit (d : Chan) (r : WaitReport) : (s.takeReport d r).credit = s.credit := by
  obtain ⟨_, _, _, _, _, h⟩ := State.takeReport_frame s d r; rw [h]
@[simp] theorem State.takeReport_windows (d : Chan) (r : WaitReport) : (s.takeReport d r).windows = s.windows := by
  obtain ⟨_, _, _, _, _, h⟩ := State.takeReport_frame s d r; rw [h]
@[simp] theorem State.takeReport_inbound (d : Chan) (r : WaitReport) : (s.takeReport d r).inbound = s.inbound := by
  obtain ⟨_, _, _, _, _, h⟩ := State.takeReport_frame s d r; rw [h]
@[simp] theorem State.takeReport_readyList (d : Chan) (r : WaitReport) : (s.takeReport d r).readyList = s.readyList := by
  obtain ⟨_, _, _, _, _, h⟩ := State.takeReport_frame s d r; rw [h]
@[simp] theorem State.takeReport_entries (d : Chan) (r : WaitReport) : (s.takeReport d r).entries = s.entries := by
  obtain ⟨_, _, _, _, _, h⟩ := State.takeReport_frame s d r; rw [h]
@[simp] theorem State.takeReport_host (d : Chan) (r : WaitReport) : (s.takeReport d r).host = s.host := by
  obtain ⟨_, _, _, _, _, h⟩ := State.takeReport_frame s d r; rw [h]
@[simp] theorem State.takeReport_written (d : Chan) (r : WaitReport) : (s.takeReport d r).written = s.written := by
  obtain ⟨_, _, _, _, _, h⟩ := State.takeReport_frame s d r; rw [h]
@[simp] theorem State.takeReport_pending (d : Chan) (r : WaitReport) : (s.takeReport d r).pending = s.pending := by
  obtain ⟨_, _, _, _, _, h⟩ := State.takeReport_frame s d r; rw [h]
@[simp] theorem State.takeReport_peer (d : Chan) (r : WaitReport) (p : Station) : (s.takeReport d r).peer p = s.peer p := by
  simp [State.peer]
@[simp] theorem State.takeReport_entry (d : Chan) (r : WaitReport) (t : Tag) : (s.takeReport d r).entry t = s.entry t := by
  simp [State.entry]
@[simp] theorem State.takeReport_slot (d : Chan) (r : WaitReport) (i : SlotNo) : (s.takeReport d r).slot i = s.slot i := by
  simp [State.slot]
@[simp] theorem State.takeReport_window (d : Chan) (r : WaitReport) (w : WindowNo) : (s.takeReport d r).window w = s.window w := by
  simp [State.window]
@[simp] theorem State.takeReport_grantCount (d : Chan) (r : WaitReport) (p : Station) : (s.takeReport d r).grantCount p = s.grantCount p := by
  simp [State.grantCount]

/-- What `leaveWaitSet` may write. -/
theorem State.leaveWaitSet_frame (l : List (Chan × WaitReport)) :
    ∃ x1, s.leaveWaitSet l = { s with marks := x1 } := by
  induction l generalizing s with
  | nil => exact ⟨_, rfl⟩
  | cons r rest ih =>
      obtain ⟨m, h⟩ := ih (s.setWait r.1 none)
      exact ⟨m, h⟩

@[simp] theorem State.leaveWaitSet_phase (l : List (Chan × WaitReport)) : (s.leaveWaitSet l).phase = s.phase := by
  obtain ⟨_, h⟩ := State.leaveWaitSet_frame s l; rw [h]
@[simp] theorem State.leaveWaitSet_latch (l : List (Chan × WaitReport)) : (s.leaveWaitSet l).latch = s.latch := by
  obtain ⟨_, h⟩ := State.leaveWaitSet_frame s l; rw [h]
@[simp] theorem State.leaveWaitSet_station (l : List (Chan × WaitReport)) : (s.leaveWaitSet l).station = s.station := by
  obtain ⟨_, h⟩ := State.leaveWaitSet_frame s l; rw [h]
@[simp] theorem State.leaveWaitSet_bus (l : List (Chan × WaitReport)) : (s.leaveWaitSet l).bus = s.bus := by
  obtain ⟨_, h⟩ := State.leaveWaitSet_frame s l; rw [h]
@[simp] theorem State.leaveWaitSet_peers (l : List (Chan × WaitReport)) : (s.leaveWaitSet l).peers = s.peers := by
  obtain ⟨_, h⟩ := State.leaveWaitSet_frame s l; rw [h]
@[simp] theorem State.leaveWaitSet_changes (l : List (Chan × WaitReport)) : (s.leaveWaitSet l).changes = s.changes := by
  obtain ⟨_, h⟩ := State.leaveWaitSet_frame s l; rw [h]
@[simp] theorem State.leaveWaitSet_credit (l : List (Chan × WaitReport)) : (s.leaveWaitSet l).credit = s.credit := by
  obtain ⟨_, h⟩ := State.leaveWaitSet_frame s l; rw [h]
@[simp] theorem State.leaveWaitSet_windows (l : List (Chan × WaitReport)) : (s.leaveWaitSet l).windows = s.windows := by
  obtain ⟨_, h⟩ := State.leaveWaitSet_frame s l; rw [h]
@[simp] theorem State.leaveWaitSet_inbound (l : List (Chan × WaitReport)) : (s.leaveWaitSet l).inbound = s.inbound := by
  obtain ⟨_, h⟩ := State.leaveWaitSet_frame s l; rw [h]
@[simp] theorem State.leaveWaitSet_channels (l : List (Chan × WaitReport)) : (s.leaveWaitSet l).channels = s.channels := by
  obtain ⟨_, h⟩ := State.leaveWaitSet_frame s l; rw [h]
@[simp] theorem State.leaveWaitSet_readyList (l : List (Chan × WaitReport)) : (s.leaveWaitSet l).readyList = s.readyList := by
  obtain ⟨_, h⟩ := State.leaveWaitSet_frame s l; rw [h]
@[simp] theorem State.leaveWaitSet_entries (l : List (Chan × WaitReport)) : (s.leaveWaitSet l).entries = s.entries := by
  obtain ⟨_, h⟩ := State.leaveWaitSet_frame s l; rw [h]
@[simp] theorem State.leaveWaitSet_port (l : List (Chan × WaitReport)) : (s.leaveWaitSet l).port = s.port := by
  obtain ⟨_, h⟩ := State.leaveWaitSet_frame s l; rw [h]
@[simp] theorem State.leaveWaitSet_ring (l : List (Chan × WaitReport)) : (s.leaveWaitSet l).ring = s.ring := by
  obtain ⟨_, h⟩ := State.leaveWaitSet_frame s l; rw [h]
@[simp] theorem State.leaveWaitSet_host (l : List (Chan × WaitReport)) : (s.leaveWaitSet l).host = s.host := by
  obtain ⟨_, h⟩ := State.leaveWaitSet_frame s l; rw [h]
@[simp] theorem State.leaveWaitSet_written (l : List (Chan × WaitReport)) : (s.leaveWaitSet l).written = s.written := by
  obtain ⟨_, h⟩ := State.leaveWaitSet_frame s l; rw [h]
@[simp] theorem State.leaveWaitSet_pending (l : List (Chan × WaitReport)) : (s.leaveWaitSet l).pending = s.pending := by
  obtain ⟨_, h⟩ := State.leaveWaitSet_frame s l; rw [h]
@[simp] theorem State.leaveWaitSet_peer (l : List (Chan × WaitReport)) (p : Station) : (s.leaveWaitSet l).peer p = s.peer p := by
  simp [State.peer]
@[simp] theorem State.leaveWaitSet_entry (l : List (Chan × WaitReport)) (t : Tag) : (s.leaveWaitSet l).entry t = s.entry t := by
  simp [State.entry]
@[simp] theorem State.leaveWaitSet_chan (l : List (Chan × WaitReport)) (c : Chan) : (s.leaveWaitSet l).chan c = s.chan c := by
  simp [State.chan]
@[simp] theorem State.leaveWaitSet_slot (l : List (Chan × WaitReport)) (i : SlotNo) : (s.leaveWaitSet l).slot i = s.slot i := by
  simp [State.slot]
@[simp] theorem State.leaveWaitSet_window (l : List (Chan × WaitReport)) (w : WindowNo) : (s.leaveWaitSet l).window w = s.window w := by
  simp [State.window]
@[simp] theorem State.leaveWaitSet_grantCount (l : List (Chan × WaitReport)) (p : Station) : (s.leaveWaitSet l).grantCount p = s.grantCount p := by
  simp [State.grantCount]

/-- One report delivered (R156). -/
theorem State.deliverReports_cons (fuel : Nat) (r : Chan × WaitReport) (rest : List (Chan × WaitReport)) :
    State.deliverReports (fuel + 1) (r :: rest) s = State.deliverReports fuel
      (rest ++ (s.takeReport r.1 r.2).waitReports)
      ((s.takeReport r.1 r.2).leaveWaitSet (s.takeReport r.1 r.2).waitReports) := rfl

/-- What `deliverReports` may write. -/
theorem State.deliverReports_frame (fuel : Nat) (l : List (Chan × WaitReport)) :
    ∃ x1 x2 x3 x4 x5, State.deliverReports fuel l s = { s with channels := x1, port := x2, marks := x3, bus := x4, ring := x5 } := by
  induction fuel generalizing l s with
  | zero => exact ⟨_, _, _, _, _, rfl⟩
  | succ n ih =>
      cases l with
      | nil => exact ⟨_, _, _, _, _, rfl⟩
      | cons r rest =>
          obtain ⟨ch, p, m, b, g, h⟩ := ih ((s.takeReport r.1 r.2).leaveWaitSet (s.takeReport r.1 r.2).waitReports)
            (rest ++ (s.takeReport r.1 r.2).waitReports)
          obtain ⟨m', h'⟩ := State.leaveWaitSet_frame (s.takeReport r.1 r.2) (s.takeReport r.1 r.2).waitReports
          obtain ⟨ch', p', m'', b', g', h''⟩ := State.takeReport_frame s r.1 r.2
          exact ⟨ch, p, m, b, g, by rw [State.deliverReports_cons, h, h', h'']⟩

@[simp] theorem State.deliverReports_phase (fuel : Nat) (l : List (Chan × WaitReport)) : (State.deliverReports fuel l s).phase = s.phase := by
  obtain ⟨_, _, _, _, _, h⟩ := State.deliverReports_frame s fuel l; rw [h]
@[simp] theorem State.deliverReports_latch (fuel : Nat) (l : List (Chan × WaitReport)) : (State.deliverReports fuel l s).latch = s.latch := by
  obtain ⟨_, _, _, _, _, h⟩ := State.deliverReports_frame s fuel l; rw [h]
@[simp] theorem State.deliverReports_station (fuel : Nat) (l : List (Chan × WaitReport)) : (State.deliverReports fuel l s).station = s.station := by
  obtain ⟨_, _, _, _, _, h⟩ := State.deliverReports_frame s fuel l; rw [h]
@[simp] theorem State.deliverReports_peers (fuel : Nat) (l : List (Chan × WaitReport)) : (State.deliverReports fuel l s).peers = s.peers := by
  obtain ⟨_, _, _, _, _, h⟩ := State.deliverReports_frame s fuel l; rw [h]
@[simp] theorem State.deliverReports_changes (fuel : Nat) (l : List (Chan × WaitReport)) : (State.deliverReports fuel l s).changes = s.changes := by
  obtain ⟨_, _, _, _, _, h⟩ := State.deliverReports_frame s fuel l; rw [h]
@[simp] theorem State.deliverReports_credit (fuel : Nat) (l : List (Chan × WaitReport)) : (State.deliverReports fuel l s).credit = s.credit := by
  obtain ⟨_, _, _, _, _, h⟩ := State.deliverReports_frame s fuel l; rw [h]
@[simp] theorem State.deliverReports_windows (fuel : Nat) (l : List (Chan × WaitReport)) : (State.deliverReports fuel l s).windows = s.windows := by
  obtain ⟨_, _, _, _, _, h⟩ := State.deliverReports_frame s fuel l; rw [h]
@[simp] theorem State.deliverReports_inbound (fuel : Nat) (l : List (Chan × WaitReport)) : (State.deliverReports fuel l s).inbound = s.inbound := by
  obtain ⟨_, _, _, _, _, h⟩ := State.deliverReports_frame s fuel l; rw [h]
@[simp] theorem State.deliverReports_readyList (fuel : Nat) (l : List (Chan × WaitReport)) : (State.deliverReports fuel l s).readyList = s.readyList := by
  obtain ⟨_, _, _, _, _, h⟩ := State.deliverReports_frame s fuel l; rw [h]
@[simp] theorem State.deliverReports_entries (fuel : Nat) (l : List (Chan × WaitReport)) : (State.deliverReports fuel l s).entries = s.entries := by
  obtain ⟨_, _, _, _, _, h⟩ := State.deliverReports_frame s fuel l; rw [h]
@[simp] theorem State.deliverReports_host (fuel : Nat) (l : List (Chan × WaitReport)) : (State.deliverReports fuel l s).host = s.host := by
  obtain ⟨_, _, _, _, _, h⟩ := State.deliverReports_frame s fuel l; rw [h]
@[simp] theorem State.deliverReports_written (fuel : Nat) (l : List (Chan × WaitReport)) : (State.deliverReports fuel l s).written = s.written := by
  obtain ⟨_, _, _, _, _, h⟩ := State.deliverReports_frame s fuel l; rw [h]
@[simp] theorem State.deliverReports_pending (fuel : Nat) (l : List (Chan × WaitReport)) : (State.deliverReports fuel l s).pending = s.pending := by
  obtain ⟨_, _, _, _, _, h⟩ := State.deliverReports_frame s fuel l; rw [h]
@[simp] theorem State.deliverReports_peer (fuel : Nat) (l : List (Chan × WaitReport)) (p : Station) : (State.deliverReports fuel l s).peer p = s.peer p := by
  simp [State.peer]
@[simp] theorem State.deliverReports_entry (fuel : Nat) (l : List (Chan × WaitReport)) (t : Tag) : (State.deliverReports fuel l s).entry t = s.entry t := by
  simp [State.entry]
@[simp] theorem State.deliverReports_slot (fuel : Nat) (l : List (Chan × WaitReport)) (i : SlotNo) : (State.deliverReports fuel l s).slot i = s.slot i := by
  simp [State.slot]
@[simp] theorem State.deliverReports_window (fuel : Nat) (l : List (Chan × WaitReport)) (w : WindowNo) : (State.deliverReports fuel l s).window w = s.window w := by
  simp [State.window]
@[simp] theorem State.deliverReports_grantCount (fuel : Nat) (l : List (Chan × WaitReport)) (p : Station) : (State.deliverReports fuel l s).grantCount p = s.grantCount p := by
  simp [State.grantCount]

/-- What `ask` may write. -/
theorem State.ask_frame (q : Station) :
    ∃ x1 x2, s.ask q = { s with peers := x1, bus := x2 } :=
  ⟨_, _, rfl⟩

@[simp] theorem State.ask_phase (q : Station) : (s.ask q).phase = s.phase := by
  obtain ⟨_, _, h⟩ := State.ask_frame s q; rw [h]
@[simp] theorem State.ask_latch (q : Station) : (s.ask q).latch = s.latch := by
  obtain ⟨_, _, h⟩ := State.ask_frame s q; rw [h]
@[simp] theorem State.ask_station (q : Station) : (s.ask q).station = s.station := by
  obtain ⟨_, _, h⟩ := State.ask_frame s q; rw [h]
@[simp] theorem State.ask_marks (q : Station) : (s.ask q).marks = s.marks := by
  obtain ⟨_, _, h⟩ := State.ask_frame s q; rw [h]
@[simp] theorem State.ask_changes (q : Station) : (s.ask q).changes = s.changes := by
  obtain ⟨_, _, h⟩ := State.ask_frame s q; rw [h]
@[simp] theorem State.ask_credit (q : Station) : (s.ask q).credit = s.credit := by
  obtain ⟨_, _, h⟩ := State.ask_frame s q; rw [h]
@[simp] theorem State.ask_windows (q : Station) : (s.ask q).windows = s.windows := by
  obtain ⟨_, _, h⟩ := State.ask_frame s q; rw [h]
@[simp] theorem State.ask_inbound (q : Station) : (s.ask q).inbound = s.inbound := by
  obtain ⟨_, _, h⟩ := State.ask_frame s q; rw [h]
@[simp] theorem State.ask_channels (q : Station) : (s.ask q).channels = s.channels := by
  obtain ⟨_, _, h⟩ := State.ask_frame s q; rw [h]
@[simp] theorem State.ask_readyList (q : Station) : (s.ask q).readyList = s.readyList := by
  obtain ⟨_, _, h⟩ := State.ask_frame s q; rw [h]
@[simp] theorem State.ask_entries (q : Station) : (s.ask q).entries = s.entries := by
  obtain ⟨_, _, h⟩ := State.ask_frame s q; rw [h]
@[simp] theorem State.ask_port (q : Station) : (s.ask q).port = s.port := by
  obtain ⟨_, _, h⟩ := State.ask_frame s q; rw [h]
@[simp] theorem State.ask_ring (q : Station) : (s.ask q).ring = s.ring := by
  obtain ⟨_, _, h⟩ := State.ask_frame s q; rw [h]
@[simp] theorem State.ask_host (q : Station) : (s.ask q).host = s.host := by
  obtain ⟨_, _, h⟩ := State.ask_frame s q; rw [h]
@[simp] theorem State.ask_written (q : Station) : (s.ask q).written = s.written := by
  obtain ⟨_, _, h⟩ := State.ask_frame s q; rw [h]
@[simp] theorem State.ask_pending (q : Station) : (s.ask q).pending = s.pending := by
  obtain ⟨_, _, h⟩ := State.ask_frame s q; rw [h]
@[simp] theorem State.ask_entry (q : Station) (t : Tag) : (s.ask q).entry t = s.entry t := by
  simp [State.entry]
@[simp] theorem State.ask_chan (q : Station) (c : Chan) : (s.ask q).chan c = s.chan c := by
  simp [State.chan]
@[simp] theorem State.ask_slot (q : Station) (i : SlotNo) : (s.ask q).slot i = s.slot i := by
  simp [State.slot]
@[simp] theorem State.ask_window (q : Station) (w : WindowNo) : (s.ask q).window w = s.window w := by
  simp [State.window]
@[simp] theorem State.ask_grantCount (q : Station) (p : Station) : (s.ask q).grantCount p = s.grantCount p := by
  simp [State.grantCount]

/-- What `issue` may write. -/
theorem State.issue_frame (u : Tag) (d : Chan) :
    ∃ x1 x2 x3 x4 x5, s.issue u d = { s with entries := x1, channels := x2, port := x3, peers := x4, readyList := x5 } := by
  simp only [State.issue]
  split
  · exact ⟨_, _, _, _, _, rfl⟩
  · exact ⟨_, _, _, _, _, rfl⟩

@[simp] theorem State.issue_phase (u : Tag) (d : Chan) : (s.issue u d).phase = s.phase := by
  obtain ⟨_, _, _, _, _, h⟩ := State.issue_frame s u d; rw [h]
@[simp] theorem State.issue_latch (u : Tag) (d : Chan) : (s.issue u d).latch = s.latch := by
  obtain ⟨_, _, _, _, _, h⟩ := State.issue_frame s u d; rw [h]
@[simp] theorem State.issue_station (u : Tag) (d : Chan) : (s.issue u d).station = s.station := by
  obtain ⟨_, _, _, _, _, h⟩ := State.issue_frame s u d; rw [h]
@[simp] theorem State.issue_marks (u : Tag) (d : Chan) : (s.issue u d).marks = s.marks := by
  obtain ⟨_, _, _, _, _, h⟩ := State.issue_frame s u d; rw [h]
@[simp] theorem State.issue_bus (u : Tag) (d : Chan) : (s.issue u d).bus = s.bus := by
  obtain ⟨_, _, _, _, _, h⟩ := State.issue_frame s u d; rw [h]
@[simp] theorem State.issue_changes (u : Tag) (d : Chan) : (s.issue u d).changes = s.changes := by
  obtain ⟨_, _, _, _, _, h⟩ := State.issue_frame s u d; rw [h]
@[simp] theorem State.issue_credit (u : Tag) (d : Chan) : (s.issue u d).credit = s.credit := by
  obtain ⟨_, _, _, _, _, h⟩ := State.issue_frame s u d; rw [h]
@[simp] theorem State.issue_windows (u : Tag) (d : Chan) : (s.issue u d).windows = s.windows := by
  obtain ⟨_, _, _, _, _, h⟩ := State.issue_frame s u d; rw [h]
@[simp] theorem State.issue_inbound (u : Tag) (d : Chan) : (s.issue u d).inbound = s.inbound := by
  obtain ⟨_, _, _, _, _, h⟩ := State.issue_frame s u d; rw [h]
@[simp] theorem State.issue_ring (u : Tag) (d : Chan) : (s.issue u d).ring = s.ring := by
  obtain ⟨_, _, _, _, _, h⟩ := State.issue_frame s u d; rw [h]
@[simp] theorem State.issue_host (u : Tag) (d : Chan) : (s.issue u d).host = s.host := by
  obtain ⟨_, _, _, _, _, h⟩ := State.issue_frame s u d; rw [h]
@[simp] theorem State.issue_written (u : Tag) (d : Chan) : (s.issue u d).written = s.written := by
  obtain ⟨_, _, _, _, _, h⟩ := State.issue_frame s u d; rw [h]
@[simp] theorem State.issue_pending (u : Tag) (d : Chan) : (s.issue u d).pending = s.pending := by
  obtain ⟨_, _, _, _, _, h⟩ := State.issue_frame s u d; rw [h]
@[simp] theorem State.issue_slot (u : Tag) (d : Chan) (i : SlotNo) : (s.issue u d).slot i = s.slot i := by
  simp [State.slot]
@[simp] theorem State.issue_window (u : Tag) (d : Chan) (w : WindowNo) : (s.issue u d).window w = s.window w := by
  simp [State.window]
@[simp] theorem State.issue_grantCount (u : Tag) (d : Chan) (p : Station) : (s.issue u d).grantCount p = s.grantCount p := by
  simp [State.grantCount]

/-- What `startAccess` may write. -/
theorem State.startAccess_frame (a : Access) :
    ∃ x1, s.startAccess a = { s with inbound := x1 } := by
  unfold State.startAccess
  split <;> exact ⟨_, rfl⟩

@[simp] theorem State.startAccess_phase (a : Access) : (s.startAccess a).phase = s.phase := by
  obtain ⟨_, h⟩ := State.startAccess_frame s a; rw [h]
@[simp] theorem State.startAccess_latch (a : Access) : (s.startAccess a).latch = s.latch := by
  obtain ⟨_, h⟩ := State.startAccess_frame s a; rw [h]
@[simp] theorem State.startAccess_station (a : Access) : (s.startAccess a).station = s.station := by
  obtain ⟨_, h⟩ := State.startAccess_frame s a; rw [h]
@[simp] theorem State.startAccess_marks (a : Access) : (s.startAccess a).marks = s.marks := by
  obtain ⟨_, h⟩ := State.startAccess_frame s a; rw [h]
@[simp] theorem State.startAccess_bus (a : Access) : (s.startAccess a).bus = s.bus := by
  obtain ⟨_, h⟩ := State.startAccess_frame s a; rw [h]
@[simp] theorem State.startAccess_peers (a : Access) : (s.startAccess a).peers = s.peers := by
  obtain ⟨_, h⟩ := State.startAccess_frame s a; rw [h]
@[simp] theorem State.startAccess_changes (a : Access) : (s.startAccess a).changes = s.changes := by
  obtain ⟨_, h⟩ := State.startAccess_frame s a; rw [h]
@[simp] theorem State.startAccess_credit (a : Access) : (s.startAccess a).credit = s.credit := by
  obtain ⟨_, h⟩ := State.startAccess_frame s a; rw [h]
@[simp] theorem State.startAccess_windows (a : Access) : (s.startAccess a).windows = s.windows := by
  obtain ⟨_, h⟩ := State.startAccess_frame s a; rw [h]
@[simp] theorem State.startAccess_channels (a : Access) : (s.startAccess a).channels = s.channels := by
  obtain ⟨_, h⟩ := State.startAccess_frame s a; rw [h]
@[simp] theorem State.startAccess_readyList (a : Access) : (s.startAccess a).readyList = s.readyList := by
  obtain ⟨_, h⟩ := State.startAccess_frame s a; rw [h]
@[simp] theorem State.startAccess_entries (a : Access) : (s.startAccess a).entries = s.entries := by
  obtain ⟨_, h⟩ := State.startAccess_frame s a; rw [h]
@[simp] theorem State.startAccess_port (a : Access) : (s.startAccess a).port = s.port := by
  obtain ⟨_, h⟩ := State.startAccess_frame s a; rw [h]
@[simp] theorem State.startAccess_ring (a : Access) : (s.startAccess a).ring = s.ring := by
  obtain ⟨_, h⟩ := State.startAccess_frame s a; rw [h]
@[simp] theorem State.startAccess_host (a : Access) : (s.startAccess a).host = s.host := by
  obtain ⟨_, h⟩ := State.startAccess_frame s a; rw [h]
@[simp] theorem State.startAccess_written (a : Access) : (s.startAccess a).written = s.written := by
  obtain ⟨_, h⟩ := State.startAccess_frame s a; rw [h]
@[simp] theorem State.startAccess_pending (a : Access) : (s.startAccess a).pending = s.pending := by
  obtain ⟨_, h⟩ := State.startAccess_frame s a; rw [h]
@[simp] theorem State.startAccess_peer (a : Access) (p : Station) : (s.startAccess a).peer p = s.peer p := by
  simp [State.peer]
@[simp] theorem State.startAccess_entry (a : Access) (t : Tag) : (s.startAccess a).entry t = s.entry t := by
  simp [State.entry]
@[simp] theorem State.startAccess_chan (a : Access) (c : Chan) : (s.startAccess a).chan c = s.chan c := by
  simp [State.chan]
@[simp] theorem State.startAccess_window (a : Access) (w : WindowNo) : (s.startAccess a).window w = s.window w := by
  simp [State.window]
@[simp] theorem State.startAccess_grantCount (a : Access) (p : Station) : (s.startAccess a).grantCount p = s.grantCount p := by
  simp [State.grantCount]

/-- What `grantOutbound` may write. -/
theorem State.grantOutbound_frame (a : Access) (l : List Access) :
    ∃ x1, s.grantOutbound a l = { s with port := x1 } :=
  ⟨_, rfl⟩

@[simp] theorem State.grantOutbound_phase (a : Access) (l : List Access) : (s.grantOutbound a l).phase = s.phase := by
  obtain ⟨_, h⟩ := State.grantOutbound_frame s a l; rw [h]
@[simp] theorem State.grantOutbound_latch (a : Access) (l : List Access) : (s.grantOutbound a l).latch = s.latch := by
  obtain ⟨_, h⟩ := State.grantOutbound_frame s a l; rw [h]
@[simp] theorem State.grantOutbound_station (a : Access) (l : List Access) : (s.grantOutbound a l).station = s.station := by
  obtain ⟨_, h⟩ := State.grantOutbound_frame s a l; rw [h]
@[simp] theorem State.grantOutbound_marks (a : Access) (l : List Access) : (s.grantOutbound a l).marks = s.marks := by
  obtain ⟨_, h⟩ := State.grantOutbound_frame s a l; rw [h]
@[simp] theorem State.grantOutbound_bus (a : Access) (l : List Access) : (s.grantOutbound a l).bus = s.bus := by
  obtain ⟨_, h⟩ := State.grantOutbound_frame s a l; rw [h]
@[simp] theorem State.grantOutbound_peers (a : Access) (l : List Access) : (s.grantOutbound a l).peers = s.peers := by
  obtain ⟨_, h⟩ := State.grantOutbound_frame s a l; rw [h]
@[simp] theorem State.grantOutbound_changes (a : Access) (l : List Access) : (s.grantOutbound a l).changes = s.changes := by
  obtain ⟨_, h⟩ := State.grantOutbound_frame s a l; rw [h]
@[simp] theorem State.grantOutbound_credit (a : Access) (l : List Access) : (s.grantOutbound a l).credit = s.credit := by
  obtain ⟨_, h⟩ := State.grantOutbound_frame s a l; rw [h]
@[simp] theorem State.grantOutbound_windows (a : Access) (l : List Access) : (s.grantOutbound a l).windows = s.windows := by
  obtain ⟨_, h⟩ := State.grantOutbound_frame s a l; rw [h]
@[simp] theorem State.grantOutbound_inbound (a : Access) (l : List Access) : (s.grantOutbound a l).inbound = s.inbound := by
  obtain ⟨_, h⟩ := State.grantOutbound_frame s a l; rw [h]
@[simp] theorem State.grantOutbound_channels (a : Access) (l : List Access) : (s.grantOutbound a l).channels = s.channels := by
  obtain ⟨_, h⟩ := State.grantOutbound_frame s a l; rw [h]
@[simp] theorem State.grantOutbound_readyList (a : Access) (l : List Access) : (s.grantOutbound a l).readyList = s.readyList := by
  obtain ⟨_, h⟩ := State.grantOutbound_frame s a l; rw [h]
@[simp] theorem State.grantOutbound_entries (a : Access) (l : List Access) : (s.grantOutbound a l).entries = s.entries := by
  obtain ⟨_, h⟩ := State.grantOutbound_frame s a l; rw [h]
@[simp] theorem State.grantOutbound_ring (a : Access) (l : List Access) : (s.grantOutbound a l).ring = s.ring := by
  obtain ⟨_, h⟩ := State.grantOutbound_frame s a l; rw [h]
@[simp] theorem State.grantOutbound_host (a : Access) (l : List Access) : (s.grantOutbound a l).host = s.host := by
  obtain ⟨_, h⟩ := State.grantOutbound_frame s a l; rw [h]
@[simp] theorem State.grantOutbound_written (a : Access) (l : List Access) : (s.grantOutbound a l).written = s.written := by
  obtain ⟨_, h⟩ := State.grantOutbound_frame s a l; rw [h]
@[simp] theorem State.grantOutbound_pending (a : Access) (l : List Access) : (s.grantOutbound a l).pending = s.pending := by
  obtain ⟨_, h⟩ := State.grantOutbound_frame s a l; rw [h]
@[simp] theorem State.grantOutbound_peer (a : Access) (l : List Access) (p : Station) : (s.grantOutbound a l).peer p = s.peer p := by
  simp [State.peer]
@[simp] theorem State.grantOutbound_entry (a : Access) (l : List Access) (t : Tag) : (s.grantOutbound a l).entry t = s.entry t := by
  simp [State.entry]
@[simp] theorem State.grantOutbound_chan (a : Access) (l : List Access) (c : Chan) : (s.grantOutbound a l).chan c = s.chan c := by
  simp [State.chan]
@[simp] theorem State.grantOutbound_slot (a : Access) (l : List Access) (i : SlotNo) : (s.grantOutbound a l).slot i = s.slot i := by
  simp [State.slot]
@[simp] theorem State.grantOutbound_window (a : Access) (l : List Access) (w : WindowNo) : (s.grantOutbound a l).window w = s.window w := by
  simp [State.window]
@[simp] theorem State.grantOutbound_grantCount (a : Access) (l : List Access) (p : Station) : (s.grantOutbound a l).grantCount p = s.grantCount p := by
  simp [State.grantCount]

/-- What `grantInbound` may write. -/
theorem State.grantInbound_frame (a : Access) (l : List Access) :
    ∃ x1 x2, s.grantInbound a l = { s with port := x1, inbound := x2 } := by
  unfold State.grantInbound
  obtain ⟨i, h⟩ := State.startAccess_frame { s with port := { s.port with
    inQueue := l, current := some { access := a, dropped := false }, lastSide := .inbound } } a
  exact ⟨_, i, h⟩

@[simp] theorem State.grantInbound_phase (a : Access) (l : List Access) : (s.grantInbound a l).phase = s.phase := by
  obtain ⟨_, _, h⟩ := State.grantInbound_frame s a l; rw [h]
@[simp] theorem State.grantInbound_latch (a : Access) (l : List Access) : (s.grantInbound a l).latch = s.latch := by
  obtain ⟨_, _, h⟩ := State.grantInbound_frame s a l; rw [h]
@[simp] theorem State.grantInbound_station (a : Access) (l : List Access) : (s.grantInbound a l).station = s.station := by
  obtain ⟨_, _, h⟩ := State.grantInbound_frame s a l; rw [h]
@[simp] theorem State.grantInbound_marks (a : Access) (l : List Access) : (s.grantInbound a l).marks = s.marks := by
  obtain ⟨_, _, h⟩ := State.grantInbound_frame s a l; rw [h]
@[simp] theorem State.grantInbound_bus (a : Access) (l : List Access) : (s.grantInbound a l).bus = s.bus := by
  obtain ⟨_, _, h⟩ := State.grantInbound_frame s a l; rw [h]
@[simp] theorem State.grantInbound_peers (a : Access) (l : List Access) : (s.grantInbound a l).peers = s.peers := by
  obtain ⟨_, _, h⟩ := State.grantInbound_frame s a l; rw [h]
@[simp] theorem State.grantInbound_changes (a : Access) (l : List Access) : (s.grantInbound a l).changes = s.changes := by
  obtain ⟨_, _, h⟩ := State.grantInbound_frame s a l; rw [h]
@[simp] theorem State.grantInbound_credit (a : Access) (l : List Access) : (s.grantInbound a l).credit = s.credit := by
  obtain ⟨_, _, h⟩ := State.grantInbound_frame s a l; rw [h]
@[simp] theorem State.grantInbound_windows (a : Access) (l : List Access) : (s.grantInbound a l).windows = s.windows := by
  obtain ⟨_, _, h⟩ := State.grantInbound_frame s a l; rw [h]
@[simp] theorem State.grantInbound_channels (a : Access) (l : List Access) : (s.grantInbound a l).channels = s.channels := by
  obtain ⟨_, _, h⟩ := State.grantInbound_frame s a l; rw [h]
@[simp] theorem State.grantInbound_readyList (a : Access) (l : List Access) : (s.grantInbound a l).readyList = s.readyList := by
  obtain ⟨_, _, h⟩ := State.grantInbound_frame s a l; rw [h]
@[simp] theorem State.grantInbound_entries (a : Access) (l : List Access) : (s.grantInbound a l).entries = s.entries := by
  obtain ⟨_, _, h⟩ := State.grantInbound_frame s a l; rw [h]
@[simp] theorem State.grantInbound_ring (a : Access) (l : List Access) : (s.grantInbound a l).ring = s.ring := by
  obtain ⟨_, _, h⟩ := State.grantInbound_frame s a l; rw [h]
@[simp] theorem State.grantInbound_host (a : Access) (l : List Access) : (s.grantInbound a l).host = s.host := by
  obtain ⟨_, _, h⟩ := State.grantInbound_frame s a l; rw [h]
@[simp] theorem State.grantInbound_written (a : Access) (l : List Access) : (s.grantInbound a l).written = s.written := by
  obtain ⟨_, _, h⟩ := State.grantInbound_frame s a l; rw [h]
@[simp] theorem State.grantInbound_pending (a : Access) (l : List Access) : (s.grantInbound a l).pending = s.pending := by
  obtain ⟨_, _, h⟩ := State.grantInbound_frame s a l; rw [h]
@[simp] theorem State.grantInbound_peer (a : Access) (l : List Access) (p : Station) : (s.grantInbound a l).peer p = s.peer p := by
  simp [State.peer]
@[simp] theorem State.grantInbound_entry (a : Access) (l : List Access) (t : Tag) : (s.grantInbound a l).entry t = s.entry t := by
  simp [State.entry]
@[simp] theorem State.grantInbound_chan (a : Access) (l : List Access) (c : Chan) : (s.grantInbound a l).chan c = s.chan c := by
  simp [State.chan]
@[simp] theorem State.grantInbound_window (a : Access) (l : List Access) (w : WindowNo) : (s.grantInbound a l).window w = s.window w := by
  simp [State.window]
@[simp] theorem State.grantInbound_grantCount (a : Access) (l : List Access) (p : Station) : (s.grantInbound a l).grantCount p = s.grantCount p := by
  simp [State.grantCount]

end Sys2Proof.Machine
end

