-- ==== Sys2Proof/Laws/Memory.lean ====
section
/-! SUPPORT. Local memory as the port has written it: a byte written reads back, every other byte reads as before, and the
canonical form is kept by every write. -/
namespace Sys2Proof.Machine

/-- Below every listed address nothing is read. -/
theorem Memory.read_none_of_lt {m : Memory} {a : Nat} (h : ∀ c ∈ m, a < c.1) : Memory.read m a = none := by
  induction m with
  | nil => rfl
  | cons c m ih =>
      have hc := h c (by simp)
      simp only [Memory.read]
      rw [if_neg (by omega)]
      exact ih fun d hd => h d (by simp [hd])

/-- A write reads back at its address, and reads as before elsewhere. -/
theorem Memory.read_write (m : Memory) (a : Nat) (b : Byte) (x : Nat) :
    Memory.read (Memory.write m a b) x = if x = a then some b else Memory.read m x := by
  induction m with
  | nil => simp [Memory.write, Memory.read, eq_comm]
  | cons c m ih =>
      obtain ⟨y, d⟩ := c
      simp only [Memory.write]
      split
      · by_cases h : x = a
        · simp [Memory.read, h]
        · simp [Memory.read, h, Ne.symm h]
      · split
        · subst_vars
          by_cases h : x = y
          · simp [Memory.read, h]
          · simp [Memory.read, h, Ne.symm h]
        · by_cases h : y = x
          · subst h
            simp [Memory.read, show y ≠ a from fun e => by omega]
          · simp [Memory.read, h, ih]

/-- Writing keeps every address below a bound below it. -/
theorem Memory.lt_of_mem_write {m : Memory} {a : Nat} {b : Byte} {y : Nat} (hy : ∀ c ∈ m, y < c.1) (ha : y < a) :
    ∀ c ∈ Memory.write m a b, y < c.1 := by
  induction m with
  | nil => simpa [Memory.write] using ha
  | cons d m ih =>
      obtain ⟨x, e⟩ := d
      have hd := hy (x, e) (by simp)
      have hm := ih fun c hc => hy c (by simp [hc])
      simp only [Memory.write]
      split
      · intro c hc
        rcases List.mem_cons.1 hc with rfl | hc
        · exact ha
        · exact hy c hc
      · split
        · intro c hc
          rcases List.mem_cons.1 hc with rfl | hc
          · exact ha
          · exact hy c (by simp [hc])
        · intro c hc
          rcases List.mem_cons.1 hc with rfl | hc
          · exact hd
          · exact hm c hc

/-- A write keeps the canonical form. -/
theorem Memory.wf_write {m : Memory} (a : Nat) (b : Byte) (hm : Memory.wf m) : Memory.wf (Memory.write m a b) := by
  induction m with
  | nil => simp [Memory.write, Memory.wf]
  | cons d m ih =>
      obtain ⟨x, e⟩ := d
      have hw := List.pairwise_cons.1 hm
      simp only [Memory.write]
      split
      · refine List.pairwise_cons.2 ⟨fun c hc => ?_, hm⟩
        rcases List.mem_cons.1 hc with rfl | hc
        · assumption
        · exact lt_trans ‹a < x› (hw.1 c hc)
      · split
        · subst_vars
          exact List.pairwise_cons.2 hw
        · exact List.pairwise_cons.2 ⟨Memory.lt_of_mem_write hw.1 (by omega), ih hw.2⟩

/-- Writing some bytes of a run keeps the canonical form. -/
theorem Memory.wf_writeWhere (took : Nat → Bool) (bytes : List Byte) (first j : Nat) {m : Memory} (hm : Memory.wf m) :
    Memory.wf (Memory.writeWhere took bytes first j m) := by
  induction bytes generalizing j m with
  | nil => exact hm
  | cons b rest ih =>
      simp only [Memory.writeWhere]
      split
      · exact ih _ (Memory.wf_write _ _ hm)
      · exact ih _ hm

/-- What a run of bytes leaves at an address: the run's byte where it was taken, else what stood there. `j` is the index
of the run's first byte. -/
theorem Memory.read_writeWhere (took : Nat → Bool) (bytes : List Byte) (first j : Nat) (m : Memory) (x : Nat) :
    Memory.read (Memory.writeWhere took bytes first j m) x =
      if first + j ≤ x ∧ x < first + j + bytes.length ∧ took (x - first) = true then bytes[x - first - j]?
      else Memory.read m x := by
  induction bytes generalizing j m with
  | nil =>
      rw [if_neg (by rintro ⟨h1, h2, -⟩; simp at h2; omega)]
      rfl
  | cons b rest ih =>
      simp only [Memory.writeWhere]
      rw [ih (j + 1)]
      by_cases hx : x = first + j
      · subst hx
        rw [if_neg (by omega)]
        by_cases ht : took j = true
        · rw [if_pos ht, Memory.read_write, if_pos rfl,
            if_pos ⟨le_refl _, by simp, by simpa [Nat.add_sub_cancel_left] using ht⟩]
          simp
        · rw [if_neg ht, if_neg (by rintro ⟨-, -, h⟩; exact ht (by simpa [Nat.add_sub_cancel_left] using h))]
      · have hr : Memory.read (if took j then Memory.write m (first + j) b else m) x = Memory.read m x := by
          split
          · rw [Memory.read_write, if_neg hx]
          · rfl
        rw [hr]
        by_cases hc : first + (j + 1) ≤ x ∧ x < first + (j + 1) + rest.length ∧ took (x - first) = true
        · rw [if_pos hc, if_pos ⟨by omega, by simp only [List.length_cons]; omega, hc.2.2⟩]
          obtain ⟨k, hk⟩ : ∃ k, x - first - j = k + 1 := ⟨x - first - j - 1, by omega⟩
          rw [hk, List.getElem?_cons_succ]
          congr 1
          omega
        · rw [if_neg hc, if_neg (by
            rintro ⟨h1, h2, h3⟩
            exact hc ⟨by omega, by simp only [List.length_cons] at h2; omega, h3⟩)]

/-- The end of an access keeps the canonical form. -/
theorem State.wf_applyWrite {s : State} (a : Access) (e : AccessEnd) (h : Memory.wf s.written) :
    Memory.wf (s.applyWrite a e).written := by
  unfold State.applyWrite
  split
  · exact Memory.wf_writeWhere _ _ _ _ h
  · exact h

/-- A start reset keeps the canonical form. -/
theorem State.wf_applyCut {s : State} (cut : List Bool) (h : Memory.wf s.written) :
    Memory.wf (s.applyCut cut).written := by
  unfold State.applyCut
  split
  · exact h
  · split
    · exact Memory.wf_writeWhere _ _ _ _ h
    · exact h

/-- Nothing is written at reset. -/
theorem State.wf_reset_written : Memory.wf State.reset.written := by simp [State.reset, Memory.wf]

end Sys2Proof.Machine
end

