-- ==== Sys2Proof/Laws/Settle.lean ====
section
/-! SUPPORT. The part's own steps: which step `ownStep` can take, what each of them can do, and the two inductions by
which a property of every own step becomes one of `settle`. -/
namespace Sys2Proof.Machine

/-! ## Induction -/

/-- A property that every own step keeps is kept by a bounded run of them. -/
theorem State.settleFor_induction {P : State → Prop} (step : ∀ s t, P s → s.ownStep = some t → P t) (fuel : Nat)
    {s : State} (h : P s) : P (s.settleFor fuel) := by
  induction fuel generalizing s with
  | zero => exact h
  | succ n ih =>
      simp only [State.settleFor]
      split
      · exact h
      · exact ih (step _ _ h ‹_›)

/-- A property that every own step keeps is kept by `settle`. -/
theorem State.settle_induction {P : State → Prop} (step : ∀ s t, P s → s.ownStep = some t → P t) {s : State} (h : P s) :
    P s.settle := State.settleFor_induction step 256 h

/-- A reflexive and transitive relation in which every own step stands relates a state to where it settles. -/
theorem State.settle_rel {R : State → State → Prop} (refl : ∀ s, R s s) (trans : ∀ s t u, R s t → R t u → R s u)
    (step : ∀ s t, s.ownStep = some t → R s t) (s : State) : R s s.settle :=
  State.settle_induction (P := R s) (fun t u h hu => trans s t u h (step t u hu)) (refl s)

/-! ## Which own step -/

/-- The own step taken is one of the ten. -/
theorem State.ownStep_cases {s t : State} (h : s.ownStep = some t) :
    (∃ u, s.absentRetire u = some t) ∨ s.judgeWaits = some t ∨ (∃ c, s.descriptorEnd c = some t) ∨
    s.recordWriteIssue = some t ∨ (∃ p, s.creditHanding p = some t) ∨ (∃ p, s.asking p = some t) ∨
    s.entryAllocation = some t ∨ s.granting = some t ∨ s.leaveQueued = some t ∨ s.accessGrant = some t := by
  have found {α : Type} {f : α → Option State} {l : List α} (h : l.findSome? f = some t) : ∃ a, f a = some t := by
    obtain ⟨a, -, ha⟩ := List.exists_of_findSome?_eq_some h
    exact ⟨a, ha⟩
  have either {a b : Option State} {P Q : Prop} (p : a = some t → P) (q : b = some t → Q) (h : (a <|> b) = some t) :
      P ∨ Q := by
    cases a with
    | none => exact .inr (q h)
    | some _ => exact .inl (p h)
  have ends : (s.leaveQueued <|> s.accessGrant) = some t → s.leaveQueued = some t ∨ s.accessGrant = some t :=
    either id id
  have issues := either (a := s.entryAllocation) id (either (a := s.granting) id ends)
  have credits := either (found (f := s.creditHanding) (l := allStations))
    (either (found (f := s.asking) (l := allStations)) issues)
  have descriptors := either (found (f := s.descriptorEnd) (l := allChans)) (either (a := s.recordWriteIssue) id credits)
  exact either found (either id descriptors) h

/-! ## What each own step can do -/

variable {s t : State}

/-- R55: the entry waits for a credit at an ABSENT peer, leaves the list and retires. -/
theorem State.absentRetire_spec {u : Tag} (h : s.absentRetire u = some t) :
    ∃ e reason, s.entry u = some e ∧ e.state = .waitingCredit ∧ (s.peer e.peer).state = .absent reason ∧
      t = (s.leaveWaitList u e.peer).retire u (e.failedOrAborted reason.code) := by
  unfold State.absentRetire at h
  split at h
  · cases h
  · split at h
    · split at h
      · exact ⟨_, _, ‹_›, ‹_›, ‹_›, (Option.some.inj h).symm⟩
      · cases h
    · cases h
    · cases h

/-- R155: a report is made of a member of the wait set, and settles its WAIT. -/
theorem State.waitReport_spec {c d : Chan} {r : WaitReport} (h : s.waitReport c = some (d, r)) :
    d = c ∧ r ≠ .still ∧ ∃ m, s.waitOf c = some m ∧ s.evaluate m = r := by
  unfold State.waitReport at h
  split at h
  · cases h
  · split at h
    · cases h
    · rename_i m hm r' hne
      cases h
      exact ⟨rfl, hne, m, hm, rfl⟩

/-- R156: some WAIT is settled, and every report of the one evaluation is delivered. -/
theorem State.judgeWaits_spec (h : s.judgeWaits = some t) :
    s.waitReports ≠ [] ∧ t = State.deliverReports 8 s.waitReports (s.leaveWaitSet s.waitReports) := by
  unfold State.judgeWaits at h
  split at h
  · cases h
  · rename_i r rest hl
    rw [hl]
    exact ⟨List.cons_ne_nil _ _, (Option.some.inj h).symm⟩

/-- R116: the channel's descriptor ends. -/
theorem State.descriptorEnd_spec {c : Chan} (h : s.descriptorEnd c = some t) :
    (s.chan c).ends = true ∧ t = s.complete c (s.chan c).endingStatus := by
  unfold State.descriptorEnd at h
  split at h
  · exact ⟨‹_›, (Option.some.inj h).symm⟩
  · cases h

/-- R54, R133: the head of the credit wait list takes a held credit; `seq` is its sequence, taken now if it had none. -/
theorem State.creditHanding_spec {p : Station} (h : s.creditHanding p = some t) :
    ∃ u rest e seq next, (s.peer p).waitList = u :: rest ∧ (s.peer p).held ≠ 0 ∧ s.entry u = some e ∧
      e.state = .waitingCredit ∧ e.peer = p ∧
      (e.seq = some seq ∧ next = (s.peer p).nextSeq ∨ e.seq = none ∧ seq = s.takeSeq p ∧ next = seq + 1#8) ∧
      t = ((s.setPeer p { s.peer p with held := (s.peer p).held - 1, waitList := rest, nextSeq := next }).setEntry u
        (some { e with state := .queued, inTransmission := false, seq := some seq })).queueRequest u := by
  unfold State.creditHanding at h
  dsimp only at h
  split at h
  · cases h
  · split at h
    · cases h
    · split at h
      · cases h
      · rename_i u rest hw h0 _ e he
        split at h
        · have hc := ‹(_ && _) = true›
          simp only [Bool.and_eq_true, decide_eq_true_eq] at hc
          split at h
          · refine ⟨u, rest, e, _, _, hw, h0, he, hc.1, hc.2, .inl ⟨‹_›, rfl⟩, ?_⟩
            rw [← Option.some.inj h, ← ‹e.seq = some _›]
          · exact ⟨u, rest, e, _, _, hw, h0, he, hc.1, hc.2, .inr ⟨‹_›, rfl, rfl⟩, (Option.some.inj h).symm⟩
        · cases h

/-- R56: entries wait, no credit is held and asked is no. -/
theorem State.asking_spec {p : Station} (h : s.asking p = some t) :
    (s.peer p).waitList ≠ [] ∧ (s.peer p).held = 0 ∧ (s.peer p).asked = false ∧ t = s.ask p := by
  simp only [State.asking] at h
  split at h
  · rename_i hc
    exact ⟨hc.1, hc.2.1, hc.2.2, (Option.some.inj h).symm⟩
  · cases h

/-- R129: the lowest-numbered FREE entry goes to the head of the ready list. -/
theorem State.entryAllocation_spec (h : s.entryAllocation = some t) :
    ∃ c rest u, s.readyList = c :: rest ∧ s.freeEntry = some u ∧ (s.chan c).copy.isSome = true ∧
      t = ({ s with readyList := rest }).issue u c := by
  unfold State.entryAllocation at h
  split at h
  · split at h
    · exact ⟨_, _, _, ‹_›, ‹_›, ‹_›, (Option.some.inj h).symm⟩
    · cases h
  · cases h

/-- R63: the oldest asker is granted the smallest of F, C minus its count, and its wanted count. -/
theorem State.granting_spec (h : s.granting = some t) :
    ∃ a rest, s.credit.askList = a :: rest ∧ s.inState .online = true ∧ 1 ≤ s.freeCapacity ∧
      ∃ g, g = min (min s.freeCapacity (s.creditCap - s.grantCount a.peer)) a.wanted ∧
        t = ({ s.setGrant a.peer (s.grantCount a.peer + g) with
          credit := { (s.setGrant a.peer (s.grantCount a.peer + g)).credit with askList := rest } }).queueControl
            (.grant a.peer g ((s.peer a.peer).incarnation.getD 0#8)) := by
  unfold State.granting at h
  split at h
  · cases h
  · split at h
    · have hc := ‹(_ && _) = true›
      simp only [Bool.and_eq_true, decide_eq_true_eq] at hc
      exact ⟨_, _, ‹_›, hc.1, hc.2, _, rfl, (Option.some.inj h).symm⟩
    · cases h

/-- R166: the record of the head of the ring wait list is issued. -/
theorem State.recordWriteIssue_spec (h : s.recordWriteIssue = some t) :
    ∃ c rest r, s.ring.waitList = c :: rest ∧ s.ring.inProgress = none ∧ s.ring.hasRoom = true ∧
      (s.chan c).record = some r ∧
      t = ({ s with ring := { s.ring with waitList := rest, inProgress := some c } }).queueOutbound
        { requester := .record c, addr := s.ring.position, length := 16, bytes := r.bytes } := by
  unfold State.recordWriteIssue at h
  split at h
  · split at h
    · split at h
      · cases h
      · exact ⟨_, _, _, ‹_›, ‹_›, ‹_›, ‹_›, (Option.some.inj h).symm⟩
    · cases h
  · cases h

/-- R11: the drain of LEAVING is done. -/
theorem State.leaveQueued_spec (h : s.leaveQueued = some t) :
    s.inState .leaving = true ∧ s.occupied = 0 ∧ s.bus.replyQueue = [] ∧ s.leavePending = false ∧
      t = s.queueControl .leave := by
  unfold State.leaveQueued at h
  split at h
  · have hc := ‹(_ && _) = true›
    simp only [Bool.and_eq_true, decide_eq_true_eq, List.isEmpty_iff, Bool.not_eq_true'] at hc
    exact ⟨hc.1.1.1, hc.1.1.2, hc.1.2, hc.2, (Option.some.inj h).symm⟩
  · cases h

/-- R161: the idle port grants the head of one side. -/
theorem State.accessGrant_spec (h : s.accessGrant = some t) :
    s.port.current = none ∧
      ((∃ a rest, s.port.outQueue = a :: rest ∧ (s.port.inQueue = [] ∨ s.port.lastSide = .inbound) ∧
          t = s.grantOutbound a rest) ∨
        ∃ b rest, s.port.inQueue = b :: rest ∧ (s.port.outQueue = [] ∨ s.port.lastSide = .outbound) ∧
          t = s.grantInbound b rest) := by
  unfold State.accessGrant at h
  split at h
  · cases h
  · refine ⟨Option.not_isSome_iff_eq_none.1 ‹_›, ?_⟩
    split at h
    · cases h
    · exact .inl ⟨_, _, ‹_›, .inl ‹_›, (Option.some.inj h).symm⟩
    · exact .inr ⟨_, _, ‹_›, .inl ‹_›, (Option.some.inj h).symm⟩
    · split at h
      · exact .inl ⟨_, _, ‹_›, .inr ‹_›, (Option.some.inj h).symm⟩
      · exact .inr ⟨_, _, ‹_›, .inr ‹_›, (Option.some.inj h).symm⟩

/-- The blocks that an own step may write. -/
structure OwnWrites where
  marks : MarkUnit
  bus : BusInterface
  peers : Vector PeerEntry 16
  credit : CreditUnit
  inbound : InboundServer
  channels : Vector Channel 8
  readyList : List Chan
  entries : Vector (Option Entry) 16
  port : LocalPort
  ring : RingUnit

/-- `s` with those blocks replaced. -/
def State.withOwn (s : State) (w : OwnWrites) : State :=
  { s with
    marks := w.marks, bus := w.bus, peers := w.peers, credit := w.credit, inbound := w.inbound, channels := w.channels
    readyList := w.readyList, entries := w.entries, port := w.port, ring := w.ring }

/-- The blocks that an own step may write, as a state holds them. -/
def State.ownWrites (s : State) : OwnWrites := { s with }

/-- What an own step may write. -/
theorem State.ownStep_frame (h : s.ownStep = some t) : ∃ w, t = s.withOwn w := by
  refine ⟨t.ownWrites, ?_⟩
  rcases State.ownStep_cases h with ⟨u, h⟩ | h | ⟨c, h⟩ | h | ⟨p, h⟩ | ⟨p, h⟩ | h | h | h | h
  · obtain ⟨e, reason, -, -, -, rfl⟩ := State.absentRetire_spec h
    obtain ⟨x, y, z, h'⟩ := State.retire_frame (s.leaveWaitList u e.peer) u (e.failedOrAborted reason.code)
    rw [h']; rfl
  · obtain ⟨-, rfl⟩ := State.judgeWaits_spec h
    obtain ⟨m, h'⟩ := State.leaveWaitSet_frame s s.waitReports
    obtain ⟨ch, p, m', b, r, h''⟩ := State.deliverReports_frame (s.leaveWaitSet s.waitReports) 8 s.waitReports
    rw [h'', h']; rfl
  · obtain ⟨-, rfl⟩ := State.descriptorEnd_spec h
    obtain ⟨ch, p, m, b, r, h'⟩ := State.complete_frame s c (s.chan c).endingStatus
    rw [h']; rfl
  · obtain ⟨c, rest, r, -, -, -, -, rfl⟩ := State.recordWriteIssue_spec h
    rfl
  · obtain ⟨u, rest, e, seq, next, -, -, -, -, -, -, rfl⟩ := State.creditHanding_spec h
    rfl
  · obtain ⟨-, -, -, rfl⟩ := State.asking_spec h
    rfl
  · obtain ⟨c, rest, u, -, -, -, rfl⟩ := State.entryAllocation_spec h
    obtain ⟨en, ch, p, q, l, h'⟩ := State.issue_frame { s with readyList := rest } u c
    rw [h']; rfl
  · obtain ⟨a, rest, -, -, -, g, -, rfl⟩ := State.granting_spec h
    rfl
  · obtain ⟨-, -, -, -, rfl⟩ := State.leaveQueued_spec h
    rfl
  · obtain ⟨-, ⟨a, rest, -, -, rfl⟩ | ⟨b, rest, -, -, rfl⟩⟩ := State.accessGrant_spec h
    · rfl
    · obtain ⟨p, i, h'⟩ := State.grantInbound_frame s b rest
      rw [h']; rfl

end Sys2Proof.Machine
end

