-- ==== Sys2Proof/Tests/Slice0.lean ====
section
/-! SUPPORT. Small tests. The expected results are taken from the worked examples and tables of spec/, named at each test;
then, for each statement that has hypotheses, one theorem that shows a state and operands meeting those of each clause. -/
namespace Sys2Proof.Tests

-- one theorem at a time: each kernel evaluation of a test otherwise waits on a thread of its own
set_option Elab.async false

open Sys2Proof.Machine Sys2Proof.Safety

/-! ## Small states -/

/-- The station of the worked check of section 1.1: number 3 of 6, C = 2, silence timeout 40 ms, attempt limit 3. -/
def config : ConfigBytes :=
  { stationNumber := 3, stationCount := 6, rateAndCap := 9, presenceInterval := 10, silenceMultiplier := 4
    replyTimeout := 8, attemptLimit := 3, checkByte := 0x2F }

/-- That station running in a station state, all else as after reset. -/
def base (st : StationState) : State :=
  { State.reset with
    phase := .running
    latch := { bytes := config, check := some .good, cause := .powerOn }
    station := { state := some st, incarnation := some 0x21, joinListen := .stopped, presence := .stopped } }

/-- That station ONLINE, with peer 1 PRESENT under incarnation 5. -/
def online : State := (base .online).modPeer 1 fun q => { q with state := .present, incarnation := some 5 }

/-- With words in PARAM0 to PARAM3. -/
def params (s : State) (a b c d : Word) : State := { s with host := { s.host with params := #v[a, b, c, d] } }

/-- The next state of an outcome. -/
def next (o : Host.Outcome State Fault Refusal) : State :=
  match o with
  | .next t => t
  | .fault _ | .refused _ => State.reset

/-- An entry of channel 0 to peer 1, a WRITE of 4 bytes. -/
def entry (st : EntryState) : Entry :=
  { state := st, chan := 0, piece := 0, peer := 1, kind := .write, window := 1, offset := 0, addr := 0x1000, length := 4
    seq := some 12, attempts := 1, replyTimer := .stopped, aborting := false, retireReason := none
    inTransmission := false, buffer := [1, 2, 3, 4] }

/-- A WRITE of 4 bytes from station 1 to offset 16 of window 2, in an inbound slot. -/
def slot (st : SlotState) : Slot :=
  { state := st, requester := 1, kind := .write, tag := 9, seq := 20, echo := 5, window := 2, offset := 16, length := 4
    buffer := [1, 2, 3, 4], status := none, stale := false, behind := none }

/-- Window 2 at 0x40000, 4096 bytes, READ-WRITE, for stations 1 and 3, with watch (section 11.7). -/
def window2 : Window :=
  { enabled := true, base := 0x40000, length := 4096, rights := .readWrite, mask := 0x000A, watch := true, notice := none }

/-- A transmission in progress of an item. -/
def sending (item : Outgoing) : Transmission :=
  { item, withdrawn := false, message := { dest := 0xFF, source := 3, inc := 0x21, body := .presence 0 } }

/-- A descriptor from its fields, in their order (section 6.1). -/
def desc (kind flags peer window local' offset length perRow1 rows localStep remoteStep nextAddr tag : Nat) : List Byte :=
  [kind, flags, peer, window].map (BitVec.ofNat 8) ++ bytesOfNat 4 local' ++ bytesOfNat 4 offset
    ++ [BitVec.ofNat 8 length, BitVec.ofNat 8 perRow1] ++ bytesOfNat 2 rows ++ bytesOfNat 4 localStep
    ++ bytesOfNat 4 remoteStep ++ bytesOfNat 4 nextAddr ++ bytesOfNat 4 tag

/-- The two-row PUT of chapter 6: flags NOTIFY and CHAIN. -/
def twoRowPut : List Byte := desc 0 3 4 1 0x12000 0x400 48 2 2 512 256 0x3420 0x11

/-- A WAIT for stations 1 and 3 at mark 7, without limit. -/
def waitDesc : List Byte := desc 2 1 0x0A 0 7 0 0 0 0 0 0 0 0

/-- Two members of the wait set that one message settles: channel 0 for peer 1 alone, advancing the own mark when DONE;
channel 1 for the own station and peer 1, at a target that this advance takes out of reach. -/
def rendezvous : State :=
  let s := (online.modChan 0 fun ch => { ch with
    state := .waiting, copy := some (desc 2 16 0x02 0 0 0 0 0 0 0 0 0 0) }).setWait 0 (some { mask := 0x0002, target := 0 })
  let s := (s.modChan 1 fun ch => { ch with
    state := .waiting, copy := some (desc 2 1 0x0A 0 32769 0 0 0 0 0 0 0 0) }).setWait 1
      (some { mask := 0x000A, target := 32769 })
  s.modPeer 1 fun q => { q with mark := some 0 }

/-! ## Well-formed terms: each check refuses an ill-formed one -/

theorem test_wf_configuration_read : (Instr.configurationReadEnd (.replicate 8 none)).wellFormed = true ∧
    (Instr.configurationReadEnd (.replicate 7 none)).wellFormed = false := by decide
theorem test_wf_unknown_command : (Instr.unknownCommand 0x15 0).wellFormed = true ∧
    (Instr.unknownCommand 0x14 0).wellFormed = false := by decide
theorem test_wf_register_write : (Instr.registerWrite 0x09 0).wellFormed = true ∧
    (Instr.registerWrite 0x18 0).wellFormed = false := by decide
theorem test_wf_source : (Instr.joinHeard 15 0 0).wellFormed = true ∧ (Instr.joinHeard 16 0 0).wellFormed = false ∧
    (Instr.presenceHeard 16 0 0).wellFormed = false ∧ (Instr.leaveHeard 255 0 0).wellFormed = false := by decide
theorem test_wf_credits : (Instr.askHeard 1 0 4).wellFormed = true ∧ (Instr.askHeard 1 0 5).wellFormed = false ∧
    (Instr.grantHeard 1 0 1 0).wellFormed = true ∧ (Instr.grantHeard 1 0 0 0).wellFormed = false := by decide
theorem test_wf_write : (Instr.writeHeard 1 0 15 0 0 7 0xFFFFF [0]).wellFormed = true ∧
    (Instr.writeHeard 1 0 16 0 0 7 0 [0]).wellFormed = false ∧ (Instr.writeHeard 1 0 0 0 0 8 0 [0]).wellFormed = false ∧
    (Instr.writeHeard 1 0 0 0 0 0 0x100000 [0]).wellFormed = false ∧
    (Instr.writeHeard 1 0 0 0 0 0 0 []).wellFormed = false ∧
    (Instr.writeHeard 1 0 0 0 0 0 0 (.replicate 65 0)).wellFormed = false := by decide +kernel
theorem test_wf_read : (Instr.readHeard 1 0 0 0 0 0 0 64).wellFormed = true ∧
    (Instr.readHeard 1 0 0 0 0 0 0 0).wellFormed = false ∧ (Instr.readHeard 1 0 0 0 0 0 0 65).wellFormed = false := by
  decide
theorem test_wf_replies : (Instr.ackHeard 1 0 0 0 0 4).wellFormed = true ∧
    (Instr.ackHeard 1 0 0 0 0 5).wellFormed = false ∧ (Instr.dataHeard 1 0 0 0 0 0 [7]).wellFormed = true ∧
    (Instr.dataHeard 1 0 0 0 0 0 []).wellFormed = false ∧ (Instr.dataHeard 1 0 0 0 0 1 [7]).wellFormed = false := by
  decide
theorem test_wf_overheard : (Instr.overheardMessage 2 1 9 0).wellFormed = true ∧
    (Instr.overheardMessage 1 1 9 0).wellFormed = false ∧ (Instr.overheardMessage 16 1 9 0).wellFormed = false ∧
    (Instr.overheardMessage 2 1 3 0).wellFormed = false := by decide

/-! ## No word spells a command; the queue is first in, first out -/

theorem test_no_word_spells_a_command : decodeTableWord 8 0x04 = none ∧
    (State.reset.withFetchWord 8 0x04).pending = [] := by decide +kernel
theorem test_first_in_first_out :
    (next (step { base .offline with pending := [.attnenWrite 1, .attnenWrite 2] })).host.attnen = 1#6 ∧
    (next (step { base .offline with pending := [.attnenWrite 1, .attnenWrite 2] })).pending = [.attnenWrite 2] := by
  decide +kernel

/-! ## Start (section 1.1, the worked check) -/

theorem test_worked_check_good : config.check = .good := by decide +kernel
/-- The same with byte 1 written as 3 and the check byte corrected: the field test fails at position 0. -/
theorem test_worked_check_field : ({ config with stationCount := 3, checkByte := 0x32 } : ConfigBytes).check = .badField 0 := by decide +kernel
theorem test_sum_is_tested_first : ({ config with checkByte := 0x30 } : ConfigBytes).check = .badSum := by decide +kernel
theorem test_unanswered_memory_is_config_fault :
    (next (exec (.configurationReadEnd (.replicate 8 none)) State.reset)).station.state = some .configFault ∧
    (next (exec (.configurationReadEnd (.replicate 8 none)) State.reset)).latch.bytes.stationCount = 0xFF := by decide +kernel
theorem test_pin_sets_its_cause_at_release :
    (next (exec (.resetPinAssert []) (base .online))).latch.cause = .powerOn ∧
    (next (exec .resetEnd (next (exec (.resetPinAssert []) (base .online))))).latch.cause = .pin := by decide +kernel
theorem test_pin_during_power_on_keeps_its_cause :
    (next (exec .resetEnd (next (exec (.resetPinAssert []) (next (exec (.powerOn []) (base .online))))))).latch.cause
      = .powerOn := by decide +kernel
theorem test_soft_reset_cause : (next (exec (.softReset 0) (base .isolated))).latch.cause = .soft ∧
    (next (exec (.softReset 0) (base .isolated))).station.state = some .offline := by decide +kernel

/-! ## Host port (section 11.7, bringing a station onto the bus) -/

theorem test_set_ring_word : rowOfWrite 0x08 0x0006 = .setRing 0 ∧
    (next (exec (.setRing 0) (params (base .offline) 0x0000 0x0002 0x0010 0))).host.result = 0x0601 ∧
    (next (exec (.setRing 0) (params (base .offline) 0x0000 0x0002 0x0010 0))).ring.config
      = some { base := 0x20000, size := 16 } := by decide +kernel
theorem test_set_window_word : rowOfWrite 0x08 0xF205 = .setWindow 0xF2 ∧
    (next (exec (.setWindow 0xF2) (params (base .offline) 0x0000 0x0004 0x1000 0x0002))).window 2
      = { window2 with mask := 0x0002 } := by decide +kernel
theorem test_set_window_refuses_the_own_number :
    (next (exec (.setWindow 0xF2) (params (base .offline) 0x0000 0x0004 0x1000 0x000A))).host.result = 0x0504 := by decide +kernel
theorem test_join_without_ring_is_refused :
    (next (exec (.join 0) (params (base .offline) 0x21 0 0 0))).host.result = 0x0104 := by decide +kernel
/-- STATION word 0 is 33 × 256 + 8 + 2 in JOINING, 0x210B in ONLINE. -/
theorem test_station_word : (base .joining).readRegister 0x05 = 0x210A ∧ (base .online).readRegister 0x05 = 0x210B := by
  decide +kernel
theorem test_start_before_online : (next (exec (.start 3) (base .joining))).host.result = 0x0703 := by decide +kernel
theorem test_leave_while_a_channel_runs : (next (exec (.leave 0) (online.modChan 2 fun ch =>
    { ch with state := .waiting }))).host.result = 0x0202 := by decide +kernel
theorem test_spi_write : spiTransfer ((bitsOfByte 0x88 ++ bitsOfByte 0xF2 ++ bitsOfByte 0x05)) = .write 0x08 0xF205 ∧
    spiTransfer (bitsOfByte 0x88 ++ bitsOfByte 0xF2) = .discarded ∧ spiTransfer (bitsOfByte 0x05) = .read 0x05 := by
  decide +kernel
/-- R171: the value stands on SDO for sixteen clocks from the eighth falling edge on, while SCS is low. -/
theorem test_sdo : let bits := bitsOfByte 0x00
    (base .online).sdo true bits 8 = some false ∧ (base .online).sdo true bits 9 = some true ∧
    (base .online).sdo true bits 23 = some false ∧ (base .online).sdo false bits 9 = none ∧
    natOfBits (shiftedOut ((base .online).readRegister 0) 24) = 0x7A16 ∧
    shiftedOut ((base .online).readRegister 0) 11 = [false, true, true] := by decide +kernel
theorem test_unknown_code : (next (exec (.unknownCommand 0xAB 7) (base .online))).host.result = 0xAB04 := by decide +kernel
theorem test_attention : let s := next (exec (.attnenWrite 0xFFFF) (base .offline))
    s.readRegister 0x19 = 0x003F ∧ s.attnLine = false ∧
    (next (exec (.consumerWrite 1) s)).readRegister 0x18 = 0x8020 ∧
    (next (exec (.attnWrite 0x0020) (next (exec (.consumerWrite 1) s)))).attnLine = false := by decide +kernel
theorem test_result_is_read_only : (next (exec (.registerWrite 0x0D 7) (base .online))).readRegister 0x0D = 0 := by decide +kernel

/-! ## Line and messages (chapter 2) -/

/-- CRC-16 with polynomial 0x1021, preset 0xFFFF and no inversion gives 0x29B1 on the digits 1 to 9 (the value published
with these parameters, from outside spec/). -/
theorem test_crc : crc16 [0x31, 0x32, 0x33, 0x34, 0x35, 0x36, 0x37, 0x38, 0x39] = 0x29B1 := by decide +kernel
/-- A JOIN of station 0 with incarnation 5 and mark 0, laid out by section 2.2. -/
theorem test_join_bytes : ({ dest := 0xFF, source := 0, inc := 5, body := .join 0 } : Message).head
    = [0xFF, 0, 1, 5, 0, 0] := by decide +kernel
/-- A WRITE laid out by section 2.2: offset most significant byte first. -/
theorem test_write_bytes :
    ({ dest := 4, source := 1, inc := 5, body := .write 2 20 19 1 0x01430 [0xAA, 0xBB] } : Message).head
    = [4, 1, 6, 5, 2, 20, 19, 1, 0x00, 0x14, 0x30, 2, 0xAA, 0xBB] := by decide +kernel
/-- The table after a message from station 2 in a group of 6 (section 2.4). -/
theorem test_bus_slots_after_station_2 :
    [3, 4, 5, 0, 1, 2].map (fun own => slotPosition own 2 6) = [0, 1, 2, 3, 4, 5] ∧
    (ownsSlot 0 2 6 3 && ownsSlot 0 2 6 9 && ownsSlot 0 2 6 15 && ownsSlot 0 2 6 21) = true ∧
    (base .online).coldGuard = 17 := by decide +kernel
theorem test_garbled_activity : rowOfLine 3 6 [false, true] = .badCheckActivity := by decide +kernel
/-- Two messages with 10 recessive bit times between them are two activities; with 9, one garbled activity (R18). A byte
of 0xFF leaves the line recessive for 9 bit times and ends nothing. -/
theorem test_activities :
    let m : Message := { dest := 0xFF, source := 0, inc := 0xFF, body := .presence 0xFFFF }
    let bits := lineBits m.bytes
    receive 3 6 none (bits ++ .replicate 10 true ++ bits ++ .replicate 10 true)
      = [.activityBegin, .presenceHeard 0 0xFF 0xFFFF, .activityBegin, .presenceHeard 0 0xFF 0xFFFF] ∧
    receive 3 6 none (bits ++ .replicate 9 true ++ bits ++ .replicate 10 true)
      = [.activityBegin, .badCheckActivity] := by decide +kernel
/-- A glitch is an activity with a bad check (R24); a line that stays dominant has no activity end (R18). -/
theorem test_glitch : receive 3 6 none (.replicate 3 false ++ .replicate 17 true) = [.activityBegin, .badCheckActivity] ∧
    receive 3 6 none (.replicate 200 false) = [.activityBegin] ∧
    receiveFrom 3 6 4 (.replicate 6 true) = [.activityBegin, .badCheckActivity] := by decide +kernel
/-- The arbitration example of section 2.6: destination 0xFF alike, source 1 against source 4; the first difference is the
sixth data bit of byte 1, bit 16 counted from 0, and station 4 goes on without hearing. -/
theorem test_arbitration :
    firstMismatch (lineBits [0xFF, 4]) (lineAnd (lineBits [0xFF, 1]) (lineBits [0xFF, 4])) = some 16 ∧
    firstMismatch (lineBits [0xFF, 1]) (lineAnd (lineBits [0xFF, 1]) (lineBits [0xFF, 4])) = some 18 := by decide +kernel
/-- The loser of a clash does not hear the winner's message, and hears the next (R36). -/
theorem test_loser_is_deaf :
    let s := { online with bus := { online.bus with transmit := some (sending (.control .presence)) } }
    let t := next (exec .transmissionClash s)
    let u := next (exec (.presenceHeard 1 5 7) t)
    t.bus.line = .abandoned ∧ u.bus.slotRef = .cold ∧ (u.peer 1).mark = none ∧ u.bus.line = .idle ∧
    ((next (exec (.presenceHeard 1 5 7) u)).peer 1).mark = some 7 := by decide +kernel
/-- A line that stays recessive after the station's own clean end is no activity (R18, R34); the rest of an abandoned
activity begins none and ends with a bad check, even where it holds a whole message (R24, R35). -/
theorem test_after_own_transmission :
    let stopBit : Reception := { levels := [], place := 0, lost := false, quiet := 1 }
    let ended := next (exec .transmissionEnd { online with bus := { online.bus with
      transmit := some (sending (.control .presence)) } })
    let m : Message := { dest := 0xFF, source := 1, inc := 5, body := .presence 7 }
    ended.bus.slotRef = .warm 3 ∧ ended.rowsHeard stopBit (.replicate 30 true) = [] ∧
    ({ online with bus := { online.bus with line := .abandoned } } : State).rowsHeard stopBit
      (lineBits m.bytes ++ .replicate 10 true ++ lineBits m.bytes ++ .replicate 10 true)
      = [.badCheckActivity, .activityBegin, .presenceHeard 1 5 7] := by decide +kernel
theorem test_damaged_message : rowOfBytes 3 6 [0xFF, 0, 2, 5, 0, 0, 0, 0] = .badCheckActivity := by decide +kernel
theorem test_own_number_isolates : (next (exec .ownNumberHeard online)).station.state = some .isolated := by decide +kernel
theorem test_third_clash_isolates :
    let s := { online with bus := { online.bus with clashCount := 2, transmit := some (sending (.control .presence)) } }
    (next (exec .transmissionClash s)).station.state = some .isolated := by decide +kernel
theorem test_reply_window_lets_no_request_out :
    let s := { online with bus := { online.bus with slotRef := .warm 2, controlQueue := [.presence] } }
    (next (exec (.busSlotStart 0) s)).bus.transmit = none ∧
    ((next (exec (.busSlotStart 6) s)).bus.transmit.map (·.item)) = some (.control .presence) := by decide +kernel
theorem test_cold_guard_of_station_3 :
    let s := { online with bus := { online.bus with controlQueue := [.presence] } }
    (next (exec (.coldGuardExpiry 16) s)).bus.transmit = none ∧
    (next (exec (.coldGuardExpiry 17) s)).bus.transmit.isSome = true := by decide +kernel

/-! ## Peers and credits (chapters 3 and 4, sequence 12.1) -/

theorem test_join_heard_makes_present : let t := next (exec (.joinHeard 2 17 0) (base .online))
    (t.peer 2).state = .present ∧ (t.peer 2).incarnation = some 17 ∧ (t.peer 2).mark = some 0 ∧ t.changes = 0x0004 ∧
    t.bus.controlQueue = [.presence] ∧ t.bus.slotRef = .warm 2 := by decide +kernel
theorem test_restart_cleans_up : let s := online.modPeer 1 fun q => { q with held := 2, asked := true }
    ((next (exec (.presenceHeard 1 6 0) s)).peer 1).held = 0 ∧
    ((next (exec (.presenceHeard 1 5 0) s)).peer 1).held = 2 := by decide +kernel
theorem test_leave_heard : ((next (exec (.leaveHeard 1 5 9) online)).peer 1).state = .absent .left := by decide +kernel
theorem test_silence : ((next (exec (.silenceTimerExpiry 1)
    (online.modPeer 1 fun q => { q with silence := .running 40 }))).peer 1).state = .absent .silent := by decide +kernel
/-- An ASK gathered in JOINING keeps its place with the latest wanted count; ONLINE grants min(8, 2, 2) to it. -/
theorem test_asks_in_joining :
    let s := next (exec (.askHeard 0 5 2) (next (exec (.askHeard 0 5 1) (base .joining))))
    let t := next (exec .joinListenTimerExpiry { s with station := { s.station with joinListen := .running 40 } })
    s.credit.askList = [{ peer := 0, wanted := 2 }] ∧ t.grantCount 0 = 2 ∧ t.freeCapacity = 6 ∧
    t.bus.controlQueue = [.grant 0 2 5] ∧ t.station.presence = .running 10 := by decide +kernel
/-- A load ends: the entry waits, one ASK goes out; a second load leaves the queued ASK at wanted 1. -/
theorem test_first_ask_keeps_its_count :
    let s := (online.setEntry 0 (some { entry .loading with seq := none })).setEntry 1
      (some { entry .loading with seq := none, piece := 1 })
    let ends (s : State) (t : Tag) := next (exec (.loadEnd (.ok [1, 2, 3, 4])) { s with port := { s.port with
      current := some { access := { requester := .load t, addr := 0x1000, length := 4, bytes := [] }, dropped := false } } })
    let t := ends (ends s 0) 1
    (t.peer 1).waitList = [0, 1] ∧ (t.peer 1).asked = true ∧ t.bus.controlQueue = [.ask 1 1] := by decide +kernel
/-- A GRANT of 2 hands both credits: sequences 0 and 1, next sequence 2, request queue [0, 1]. -/
theorem test_grant_hands_credits :
    let s := ((online.modPeer 1 fun q => { q with waitList := [0, 1], asked := true, askTimer := .running 8 }).setEntry 0
      (some { entry .waitingCredit with seq := none })).setEntry 1 (some { entry .waitingCredit with seq := none })
    let t := next (exec (.grantHeard 1 5 2 0x21) s)
    t.bus.requestQueue = [0, 1] ∧ (t.peer 1).nextSeq = 2 ∧ (t.peer 1).held = 0 ∧ (t.peer 1).asked = false ∧
    (t.entry 1).map (·.seq) = some (some 1) := by decide +kernel
theorem test_stale_echo : ((next (exec (.grantHeard 1 5 2 0x20) online)).peer 1).held = 0 := by decide +kernel
theorem test_no_credit_refusal :
    (next (exec (.readHeard 1 5 3 20 20 2 16 4) online)).bus.replyQueue
      = [{ owner := .refusal, dest := 1, kind := .read, tag := 3, seq := 20, echo := 5, status := .noCredit, payload := [] }] := by
  decide +kernel

/-! ## Inbound service (chapter 5, a retried WRITE answered from the record) -/

theorem test_pruning : [251, 240].map (fun q => seqBefore q 250) = [false, true] ∧
    [20, 21].map (fun q => seqBefore q 22) = [true, true] := by decide +kernel
theorem test_write_is_admitted_and_performed :
    let s := (online.setWindowAt 2 window2).setGrant 1 1
    let t := next (exec (.writeHeard 1 5 9 20 20 2 0x100 [1, 2, 3]) s)
    let u := next (exec (.inboundAccessEnd (.ok [])) t)
    (t.slot 0).map (·.state) = some .accessing ∧ t.grantCount 1 = 0 ∧ (u.slot 0).map (·.state) = some .replyQueued ∧
    (u.peer 1).served = [{ seq := 20, status := .done }] ∧ Memory.read u.written 0x40102 = some 3 ∧
    Memory.read u.written 0x40103 = none ∧
    (u.window 2).notice = some { firstPeer := 1, firstOffset := 0x100, lastPeer := 1, count := 1 } := by decide +kernel
theorem test_retry_is_answered_from_the_record :
    let s := ((online.setWindowAt 2 window2).setGrant 1 1).modPeer 1 fun q => { q with served := [{ seq := 20, status := .done }] }
    let t := next (exec (.writeHeard 1 5 9 20 20 2 0x100 [1, 2, 3]) s)
    (t.slot 0).map (·.status) = some (some .done) ∧ (t.window 2).notice = none ∧ t.port.current = none := by decide +kernel
theorem test_range_refusal :
    let s := (online.setWindowAt 2 { window2 with length := 1280 }).setGrant 1 1
    ((next (exec (.writeHeard 1 5 9 20 20 2 0x500 (.replicate 48 0)) s)).slot 0).map (·.status)
      = some (some .refusedRange) := by decide +kernel
theorem test_failed_write_takes_the_cycles_before :
    tookByte 0x41 5 (.error 1 true false []) 0 = true ∧ tookByte 0x41 5 (.error 1 true false []) 1 = true ∧
    tookByte 0x41 5 (.error 1 true false []) 2 = false ∧ tookByte 0x41 5 (.error 1 true false []) 3 = false := by decide +kernel

/-! ## Descriptors and channels (chapters 6 and 7) -/

theorem test_two_row_put : twoRowPut.length = 32 ∧ descValid 1 6 twoRowPut = true ∧ descPieces twoRowPut = 6 ∧
    (List.range 6).map (pieceLocal twoRowPut) = [0x12000, 0x12030, 0x12060, 0x12200, 0x12230, 0x12260] ∧
    (List.range 6).map (pieceRemote twoRowPut) = [0x400, 0x430, 0x460, 0x500, 0x530, 0x560] ∧
    descNext twoRowPut = 0x3420 := by decide +kernel
/-- The patterns near the edges. -/
theorem test_patterns_near_the_edges :
    descValid 1 6 (desc 1 0 4 0 0x100 0 64 3 3 0xFFFFFF00 0 0 0) = false ∧
    descValid 1 6 (desc 1 0 4 0 0x100 0 64 3 2 0xFFFFFF00 0 0 0) = true ∧
    descValid 1 6 (desc 0 0 4 0 0 0xFFF00 64 3 1 0 0 0 0) = true ∧
    descValid 1 6 (desc 0 0 4 0 0 0xFFF00 64 3 2 0 16 0 0) = false ∧
    descValid 1 6 (desc 0 0 4 0 0 0xFFF00 64 3 2 0 0 0 0) = true := by decide +kernel
theorem test_start_and_fetch :
    let s := next (exec (.start 2) (params online 0x3400 0 0 0))
    let t := next (exec (.descriptorFetchEnd (.ok twoRowPut)) s)
    (s.chan 2).state = .fetching ∧ s.port.current.isSome = true ∧ (t.chan 2).state = .running ∧ (t.chan 2).issued = 4 ∧
    (t.entry 3).map (·.addr) = some 0x12200 ∧ t.readyList = [] := by decide +kernel
theorem test_invalid_descriptor_faults :
    let s := next (exec (.start 2) (params online 0x3400 0 0 0))
    let t := next (exec (.descriptorFetchEnd (.ok (desc 3 0 0 0 0 0 0 0 0 0 0 0 0))) s)
    ((t.chan 2).fault.map (·.code)) = some .badDescriptor ∧ (t.chan 2).pending = some .faulted ∧
    t.ring.waitList = [2] := by decide +kernel
/-- The second ABORT finds the chaining cancelled already (chapter 7, ABORT while the record waits). -/
theorem test_abort_while_the_record_waits :
    let s := online.modChan 3 fun ch => { ch with
      state := .completing, pending := some .done, recordDue := true, copy := some twoRowPut }
    (next (exec (.abort 3) s)).host.result = 0x0801 ∧
    (next (exec (.abort 3) (next (exec (.abort 3) s)))).host.result = 0x0805 := by decide +kernel
theorem test_record_bytes : ({ chan := 3, status := .aborted, code := none, done := 3, failed := 0, addr := 0x3400
                               tagWord := [0x11, 0, 0, 0] } : Record).bytes
    = [3, 3, 0, 3, 0, 0, 0, 0, 0, 0x00, 0x34, 0x00, 0x11, 0, 0, 0] := by decide +kernel

/-! ## Transactions, marks, port and ring (chapters 8 to 10) -/

/-- The low-water table of section 8.3. -/
theorem test_low_water :
    [((23 : Byte), [(20 : Byte), 22]), (23, [22]), (2, [250, 1]), (150, [10, 148, 149])].map (fun x =>
      (oldestAge x.1 x.2).map fun a => x.1 - BitVec.ofNat 8 (min a 128)) = [some 20, some 22, some 250, some 22] := by decide +kernel
/-- Sequence 12.4: ACK DONE settles the entry; a reply that matches nothing changes nothing. -/
theorem test_ack_settles : let s := online.setEntry 4 (some (entry .sent))
    (next (exec (.ackHeard 1 5 4 12 0x21 0) s)).entry 4 = none ∧
    ((next (exec (.ackHeard 1 5 4 13 0x21 0) s)).entry 4).isSome = true ∧
    ((next (exec (.dataHeard 1 5 4 12 0x21 1 []) s)).entry 4).isSome = true := by decide +kernel
theorem test_reply_timeout : let s := online.setEntry 4 (some { entry .sent with replyTimer := .running 8, attempts := 3 })
    ((next (exec (.replyTimerExpiry 4) s)).chan 0).fault.map (·.code) = some .timeout := by decide +kernel
/-- The comparison table of section 9.2. -/
theorem test_marks : [((7 : Word), (7 : Word)), (9, 7), (6, 7), (2, 65535), (65534, 3), (32774, 7), (32775, 7)].map
    (fun x => markReached x.1 x.2) = [true, true, false, true, false, true, false] := by decide +kernel
theorem test_advance_mark : let t := next (exec (.advanceMark 0) (next (exec (.advanceMark 0) online)))
    t.marks.own = 2 ∧ t.bus.controlQueue = [.presence] := by decide +kernel
theorem test_rendezvous : let s := (online.modChan 1 fun ch => { ch with
      state := .waiting, copy := some waitDesc }).setWait 1 (some { mask := 0x000A, target := 7 })
    let t := next (exec (.presenceHeard 1 5 8) { s with marks := { s.marks with own := 7 } })
    (t.chan 1).pending = some .done ∧ t.waitOf 1 = none := by decide +kernel
/-- The members that one event settles are independent of one another (R156). -/
theorem test_members_are_independent :
    let t := next (exec (.presenceHeard 1 5 0) (rendezvous.modPeer 1 fun q => { q with mark := none }))
    t.marks.own = 1 ∧ (t.chan 0).state = .idle ∧ (t.chan 1).pending = some .done ∧ t.waitOf 1 = none := by decide +kernel
/-- A failed read leaves the bytes of the cycles before the failing one in the buffer (R159). -/
theorem test_failed_read_keeps_the_cycles_before :
    readBuffer 0x41 5 (.error 2 false false [7, 8, 9, 10, 11]) = [7, 8, 9] ∧
    readBuffer 0x40 5 (.error 0 false false [7, 8]) = [] := by decide +kernel
/-- Retirements end their channels in the order of their tags (R147), here channel 5 by tag 0 before channel 2 by tag 1. -/
theorem test_isolation_order_of_retirements :
    let s := (online.modChan 5 fun ch => { ch with state := .draining, owned := 1 }).setEntry 0
      (some { entry .sent with chan := 5 })
    let s := (s.modChan 2 fun ch => { ch with state := .draining, owned := 1 }).setEntry 1 (some { entry .sent with chan := 2 })
    (next (exec .ownNumberHeard s)).ring.waitList = [5, 2] := by decide +kernel
/-- Isolation sends channels to the ring in increasing number, WAITING or DRAINING (R166). -/
theorem test_isolation_order :
    let s := (online.modChan 5 fun ch => { ch with state := .waiting }).setWait 5 (some { mask := 0x0002, target := 1 })
    let s := s.modChan 2 fun ch => { ch with state := .draining, owned := 1 }
    let t := next (exec .ownNumberHeard (s.setEntry 7 (some { entry .sent with chan := 2 })))
    t.ring.waitList = [2, 5] ∧ (t.chan 2).pending = some .faulted := by decide +kernel
/-- Two sides waiting (section 10.2). -/
theorem test_two_sides_waiting :
    let access (r : Requester) : Access := { requester := r, addr := 0, length := 2, bytes := [] }
    let s := { online with port := { online.port with
      outQueue := [access (.fetch 0), access (.load 3)], inQueue := [access (.inboundRead 1)] } }
    let t := next (exec .accessGrant s)
    let u := next (exec (.descriptorFetchEnd (.error 0 false false [])) t)
    (t.port.current.map (·.access.requester)) = some (.fetch 0) ∧
    (u.port.current.map (·.access.requester)) = some (.inboundRead 1) := by decide +kernel
/-- A consumer write checked (section 10.3). -/
theorem test_consumer_writes : let s := { online with ring := { online.ring with producer := 40, consumer := 34 } }
    let t := next (exec (.consumerWrite 38) s)
    t.ring.consumer = 38 ∧ (next (exec (.consumerWrite 37) t)).host.misuseCause = true ∧
    (next (exec (.consumerWrite 40) t)).ringCause = false ∧
    (next (exec (.consumerWrite 41) (next (exec (.consumerWrite 40) t)))).ring.consumer = 40 := by decide +kernel
theorem test_record_write : let s := { online.modChan 3 fun ch => { ch with
        state := .completing, pending := some .aborted, recordDue := true, record := some
          { chan := 3, status := .aborted, code := none, done := 3, failed := 0, addr := 0x3400, tagWord := [0, 0, 0, 0] } }
      with ring := { online.ring with
        config := some { base := 0x20000, size := 8 }, producer := 40, consumer := 32, waitList := [3] } }
    let t := next (exec (.consumerWrite 34) s)
    let u := next (exec (.recordWriteEnd (.ok [])) t)
    (t.port.current.map (·.access.addr)) = some 0x20000 ∧ u.ring.producer = 41 ∧ (u.chan 3).state = .idle ∧
    Memory.read u.written 0x20001 = some 3 := by decide +kernel

/-! ## Witnesses: states and operands that meet the hypotheses of the statements, clause by clause -/

/-- `online` with channel 0 changed. -/
def chan0 (f : Channel → Channel) : State := online.modChan 0 f

/-- `online` with an access in progress. -/
def accessing (s : State) (r : Requester) (dropped : Bool) : State :=
  { s with port := { s.port with
      current := some { access := { requester := r, addr := 0x1000, length := 4, bytes := [] }, dropped } } }

/-- `online` while an item is being sent. -/
def sent (item : Outgoing) (withdrawn : Bool) (clashes : Nat) (queue : List Control) : State :=
  { online with bus := { online.bus with
      transmit := some { sending item with withdrawn }, clashCount := clashes, controlQueue := queue } }

/-- A reply of slot 0, and one of a refusal place. -/
def reply (owner : ReplyOwner) : QueuedReply :=
  { owner, dest := 1, kind := .write, tag := 9, seq := 20, echo := 5, status := .done, payload := [] }

/-- A WRITE in slot 0, `online`. -/
def slot0 (x : Slot) : State := (online.setWindowAt 2 window2).setSlot 0 (some x)

/-- A state that uses the books: peer 1 has a grant of 1, holds a credit and has an entry waiting for one, peer 2 asks,
slot 0 serves peer 1, an ASK to peer 1 waits, channel 0 owns three entries, one SENT, one WAITING-CREDIT and one QUEUED,
channel 1 waits for a mark, channel 2 fetches, channel 3's record is being written, and the command in front is
GRANTING. -/
def books : State :=
  let s := ((online.setGrant 1 1).setSlot 0 (some (slot .replyQueued))).setEntry 4 (some (entry .sent))
  let s := (s.setEntry 5 (some { entry .waitingCredit with seq := none })).setEntry 6
    (some { entry .queued with seq := some 13 })
  let s := s.modPeer 1 fun q => { q with held := 1, waitList := [5], served := [{ seq := 20, status := .done }] }
  let s := s.modChan 0 fun ch => { ch with state := .draining, owned := 3, issued := 3, next := 3 }
  let s := (s.modChan 1 fun ch => { ch with state := .waiting }).setWait 1 (some { mask := 0x0002, target := 9 })
  let s := (s.modChan 2 fun ch => { ch with state := .fetching }).modChan 3 fun ch => { ch with
    state := .completing, pending := some .aborted, recordDue := true }
  { s with
    credit := { s.credit with askList := [{ peer := 2, wanted := 4 }] }
    bus := { s.bus with controlQueue := [.ask 1 1], requestQueue := [6] }
    ring := { s.ring with
      config := some { base := 0x20000, size := 8 }, producer := 7, consumer := 0, inProgress := some 3 }
    pending := [.granting] }

/-- `online` after its message was abandoned on a clash. -/
def deaf : State := { online with bus := { online.bus with line := .abandoned } }

theorem witness_hearing : Hearing online 1 1 := by unfold Hearing; decide +kernel

theorem witness_StepRunsTheFrontCommand : ({ online with pending := [.leave 0] } : State).pending = .leave 0 :: [] ∧
    online.pending = [] := by decide +kernel

theorem witness_StartReadsTheConfiguration : ({ online with phase := .inReset .pin } : State).phase = .inReset .pin ∧
    (∀ kind, online.phase ≠ .inReset kind) ∧ State.reset.phase = .reading ∧ online.phase ≠ .reading :=
  ⟨rfl, fun _ => Phase.noConfusion, rfl, by decide +kernel⟩

theorem witness_HostPortIsSilentOutsideRunning : State.reset.phase ≠ .running ∧ isHostWrite (.leave 0) = true := by
  decide +kernel

theorem witness_SoftResetReturnsToResetContents : (base .configFault).phase = .running ∧ online.phase = .running := by
  decide +kernel

theorem witness_RefusedCommandsOnlyAnswer : online.phase = .running ∧ online.station.state ≠ some .offline ∧
    (base .offline).station.state ≠ some .online ∧ online.station.state ≠ some .isolated ∧
    (base .configFault).station.state = some .configFault ∧
    ∀ code ∈ [(0x00 : Byte), 0x0B, 0x0F, 0x15, 0xFF],
      ¬ (1 ≤ code.toNat ∧ code.toNat ≤ 0x0A ∨ 0x10 ≤ code.toNat ∧ code.toNat ≤ 0x14) := by decide +kernel

/-- `base .offline` with a ring. -/
def ringed : State :=
  { base .offline with ring := { (base .offline).ring with config := some { base := 0x20000, size := 16 } } }

theorem witness_JoinEntersJoining : ringed.phase = .running ∧ ringed.station.state = some .offline ∧
    online.station.state ≠ some .offline ∧
    ((params ringed 255 0 0 0).ring.config.isSome = true ∧ ((params ringed 255 0 0 0).param 0).toNat ≤ 255) ∧
    ¬ ((params ringed 256 0 0 0).ring.config.isSome = true ∧ ((params ringed 256 0 0 0).param 0).toNat ≤ 255) := by
  decide +kernel

theorem witness_LeaveAndClearIsolation : online.station.state = some .online ∧
    (∀ c, (online.chan c).state = .idle ∨ (online.chan c).state = .faulted) ∧
    (¬ ∀ c, ((chan0 fun ch => { ch with state := .waiting }).chan c).state = .idle ∨
      ((chan0 fun ch => { ch with state := .waiting }).chan c).state = .faulted) ∧
    (base .isolated).station.state = some .isolated ∧
    (∀ c, ((base .isolated).chan c).state = .idle ∨ ((base .isolated).chan c).state = .faulted) ∧
    (base .isolated).ring.waitList = [] ∧ (base .isolated).ring.inProgress = none := by decide +kernel

theorem witness_StationTimersExpire : (base .joining).station.state = some .joining ∧
    ({ joinListen := .running 40, presence := .running 10, state := none, incarnation := none } :
      StationController).joinListen = .running 40 := by decide +kernel

theorem witness_SettingUpTakesWindowsAndRing : online.phase = .running ∧ online.station.state ≠ some .offline ∧
    -- the longest window at the top of local memory, and one byte more; the highest ring, and one place above it
    (let s := params (base .offline) 0x0000 0x10F0 0x0000 0x0002
     let op : Byte := 0xF7
     let base := (s.param 0).toNat + 65536 * ((s.param 1).extractLsb' 0 8).toNat
     let length := (s.param 2).toNat + 65536 * ((s.param 1).extractLsb' 8 8).toNat
     op.toNat % 16 ≤ 7 ∧ 1 ≤ length ∧ length = 1048576 ∧ base + length = 0x1000000 ∧ 1 ≤ op.toNat / 64 ∧
       ∀ p : Station, (s.param 3).getLsbD p.val = true → p.val < s.stationCount ∧ p.val ≠ s.own) ∧
    (let s := params (base .offline) 0x0001 0x10F0 0x0000 0x0002
     ¬ (s.param 0).toNat + 65536 * ((s.param 1).extractLsb' 0 8).toNat
       + ((s.param 2).toNat + 65536 * ((s.param 1).extractLsb' 8 8).toNat) ≤ 0x1000000) ∧
    (let s := params (base .offline) 0xFF80 0x00FF 8 0
     let base := (s.param 0).toNat + 65536 * (s.param 1).toNat
     base % 16 = 0 ∧ base ≤ 0xFFFFF0 ∧ (s.param 2).toNat = 8 ∧ base + 16 * (s.param 2).toNat = 0x1000000) ∧
    (let s := params (base .offline) 0xFF90 0x00FF 8 0
     ¬ (s.param 0).toNat + 65536 * (s.param 1).toNat + 16 * (s.param 2).toNat ≤ 0x1000000) := by decide +kernel

theorem witness_StartTestsInOrder : online.phase = .running ∧ online.station.state ≠ some .configFault ∧
    (base .configFault).station.state = some .configFault ∧
    8 ≤ (8 : Byte).toNat ∧ (7 : Chan).val = (7 : Byte).toNat ∧
    ((chan0 fun ch => { ch with state := .faulted }).chan 0).state ≠ .idle ∧ (online.chan 0).state = .idle ∧
    (base .offline).station.state ≠ some .online ∧ ((base .offline).chan 0).state = .idle ∧
    (let s := params online 0xFFE0 0x00FF 0 0
     (s.param 0).toNat + 65536 * (s.param 1).toNat ≤ 0xFFFFFF ∧
       ((s.param 0).toNat + 65536 * (s.param 1).toNat) % 32 = 0) ∧
    (let s := params online 0x0000 0x0100 0 0
     ¬ (s.param 0).toNat + 65536 * (s.param 1).toNat ≤ 0xFFFFFF) := by decide +kernel

theorem witness_AbortFollowsTheChannel : online.phase = .running ∧ (0 : Chan).val = (0 : Byte).toNat ∧
    (online.chan 0).state = .idle ∧
    (let s := chan0 fun ch => { ch with state := .running, flag := .stopping }
     (s.chan 0).state = .running ∧ (s.chan 0).flag ≠ .none) ∧
    (let s := chan0 fun ch => { ch with state := .fetching }
     (s.chan 0).state = .fetching ∧ (s.chan 0).flag = .none) ∧
    (let s := chan0 fun ch => { ch with state := .draining }
     (s.chan 0).state = .draining ∧ (s.chan 0).flag = .none) ∧
    ((chan0 fun ch => { ch with state := .waiting }).chan 0).state = .waiting ∧
    (let s := chan0 fun ch => { ch with state := .completing, pending := some .partly, copy := some twoRowPut }
     (s.chan 0).state = .completing ∧ (s.chan 0).pending = some .partly ∧
       ((s.chan 0).desc.getD 1 0#8).getLsbD 1 = true ∧ (s.chan 0).chainCancelled = false) ∧
    ((chan0 fun ch => { ch with state := .completing, pending := some .aborted }).chan 0).pending ≠ some .done ∧
    (∀ st ∈ [EntryState.loading, .waitingCredit, .queued, .sent, .storing],
      let e := { entry st with aborting := true }
      (online.setEntry 4 (some e)).entry 4 = some e ∧ e.chan = 0 ∧ e.state = st ∧ e.inTransmission = false) ∧
    online.entry 4 = none ∧ (entry .sent).aborting = false := by
  decide +kernel

theorem witness_AbortLeavesNoWaitingEntry :
    let s := (chan0 fun ch => { ch with state := .running, owned := 1 }).setEntry 4 (some (entry .waitingCredit))
    s.phase = .running ∧ (0 : Chan).val = (0 : Byte).toNat ∧ (s.chan 0).state = .running ∧ (s.chan 0).flag = .none ∧
      ∃ t, exec (.abort 0) s = .next t := ⟨rfl, rfl, rfl, rfl, _, rfl⟩

theorem witness_ClearReleasesAFaultedChannel :
    ((chan0 fun ch => { ch with state := .faulted }).chan 0).state = .faulted ∧ (online.chan 0).state ≠ .faulted ∧
    8 ≤ (8 : Byte).toNat ∧ (0 : Chan).val = (0 : Byte).toNat := by decide +kernel

theorem witness_AdvanceMarkRaisesTheMark : online.phase = .running ∧ online.station.state = some .online ∧
    (base .leaving).phase = .running ∧ (base .leaving).station.state ≠ some .online := by decide +kernel

theorem witness_ReadWindowWatchAndPeerChanges : online.phase = .running ∧ (7 : WindowNo).val = (7 : Byte).toNat ∧
    8 ≤ (8 : Byte).toNat ∧ (online.window 7).base ≤ 0xFFFFFF ∧ (online.window 7).length ≤ 1048576 ∧
    (online.window 7).notice = none ∧
    (let s := online.setWindowAt 7 { window2 with
        notice := some { firstPeer := 1, firstOffset := 0xFFFFF, lastPeer := 3, count := 65535 } }
     (s.window 7).notice = some { firstPeer := 1, firstOffset := 0xFFFFF, lastPeer := 3, count := 65535 }) := by
  decide +kernel

theorem witness_ReadPeerShowsTheEntry : online.phase = .running ∧ (15 : Station).val = (15 : Byte).toNat ∧
    16 ≤ (16 : Byte).toNat ∧ (online.peer 15).held ≤ 4 ∧ online.grantCount 15 ≤ 4 ∧
    (online.peer 15).waitList.length ≤ 4 ∧ (online.peer 15).served.length ≤ 4 ∧
    (((online.credit.askList.find? fun a => a.peer = 15).map (·.wanted)).getD 0) ≤ 4 := by decide +kernel

theorem witness_ReadChannelShowsThePage : online.phase = .running ∧ 8 ≤ (8 : Byte).toNat ∧
    (0 : Chan).val = (0 : Byte).toNat ∧ 2 < ((params online 3 0 0 0).param 0).toNat ∧
    ((params online 0 0 0 0).param 0).toNat = 0 ∧ ((params online 1 0 0 0).param 0).toNat = 1 ∧
    ((params online 2 0 0 0).param 0).toNat = 2 ∧ (online.chan 0).owned ≤ 4 ∧ (online.chan 0).issued ≤ 1048576 ∧
    (online.chan 0).fault = none ∧
    (let s := chan0 fun ch => { ch with
        fault := some { code := .timeout, piece := some 5, peer := some 1, addr := 0xFFFFE0, further := 255 } }
     (s.chan 0).fault.map (fun f => decide (f.further ≤ 255 ∧ f.addr ≤ 0xFFFFFF ∧ f.piece.getD 0 ≤ 1048576)) = some true) :=
  by decide +kernel

theorem witness_ConsumerWriteStaysInRange :
    let s := { online with ring := { online.ring with producer := 2, consumer := 0xFFFE } }
    s.phase = .running ∧ ((2 : Word) - s.ring.consumer).toNat ≤ (s.ring.producer - s.ring.consumer).toNat ∧
    ¬ ((3 : Word) - s.ring.consumer).toNat ≤ (s.ring.producer - s.ring.consumer).toNat := by decide +kernel

theorem witness_RegistersReadAsTheTableSays : online.phase = .running ∧ online.latch.check = some .good ∧
    ((0x05 : Byte).getLsbD 7 = false ∧ (0x88 : Byte).getLsbD 7 = true) ∧ (bitsOfByte 0xF2).length < 16 ∧
    bitsOfByte 0xF2 ++ bitsOfByte 0x05 ++ [true] = bitsOfByte ((0xF205 : Word).extractLsb' 8 8)
      ++ bitsOfByte ((0xF205 : Word).extractLsb' 0 8) ++ [true] ∧
    (∀ code ∈ [(0x00 : Byte), 0x0B, 0x0F, 0x15, 0xFF],
      ¬ (1 ≤ code.toNat ∧ code.toNat ≤ 0x0A ∨ 0x10 ≤ code.toNat ∧ code.toNat ≤ 0x14)) ∧
    ∀ a ∈ [(0x00 : BitVec 7), 0x09, 0x7F], a ≠ 0x08 ∧ a ≠ 0x18 ∧ a ≠ 0x19 ∧ a ≠ 0x1B := by decide +kernel

theorem witness_RegisterWritesAndAttention : online.phase = .running ∧
    ∀ a ∈ [(0x08 : BitVec 7), 0x0D, 0x7F], ¬ (0x09 ≤ a.toNat ∧ a.toNat ≤ 0x0C) := by decide +kernel

theorem witness_MessagesReadBackFromTheLine :
    (sent (.control .presence) false 0 []).bus.transmit = some (sending (.control .presence)) ∧ online.bus.transmit = none ∧
    (let a := lineByte 1
     let b := lineByte 0
     8 < a.length ∧ 8 < b.length ∧ a.take 8 = b.take 8 ∧ a[8]? = some true ∧ b[8]? = some false) ∧
    ({ dest := 4, source := 1, inc := 5, body := .write 2 20 19 1 0x01430 [0xAA, 0xBB] } : Message).wellFormed = true ∧
    ({ dest := 0xFF, source := 200, inc := 5, body := .leave 7 } : Message).wellFormed = true ∧
    (let s := { online with bus := { online.bus with slotRef := .warm 3 } }
     s.listening = true ∧ s.bus.line = .idle) ∧ deaf.listening = true ∧ deaf.bus.line = .abandoned := by decide +kernel

theorem witness_LineEventsMoveTheSlotReference : online.listening = true ∧
    (online.stationCount ≤ (6 : Byte).toNat ∧ (6 : Byte).toNat ≠ online.own) ∧ Hearing online 1 1 ∧
    (base .offline).listening = false ∧ heardSource (.ackHeard 3 0 0 0 0 0) = some 3 ∧ (3 : Byte).toNat = online.own ∧
    online.bus.line ≠ .abandoned ∧ deaf.listening = true ∧ deaf.bus.line = .abandoned ∧ (2 : Byte).toNat ≠ deaf.own := by
  unfold Hearing
  decide +kernel

theorem witness_IsolationTakesTheStationOffTheBus : TableBooks books ∧
    (accessing online (.inboundWrite 0) false).port.current.isSome = true ∧
    (∀ st ∈ [ChanState.idle, .fetching, .draining, .waiting, .completing], ∃ c, (books.chan c).state = st) ∧
    books.ring.inProgress ≠ none := by
  refine ⟨?_, ?_⟩
  · constructor <;> decide +kernel
  · decide +kernel

/-- The same with a RUNNING channel that owns an entry, a FAULTED one, and no record in progress. -/
theorem witness_IsolationTakesTheStationOffTheBus_running :
    let s := books.setEntry 9 (some { entry .sent with chan := 4, peer := 2 })
    let s := (s.modChan 4 fun ch => { ch with state := .running, owned := 1, next := 1, issued := 1 }).modChan 5 fun ch =>
      { ch with state := .faulted }
    let s := { s with ring := { s.ring with inProgress := none } }
    TableBooks s ∧ (s.chan 4).state = .running ∧ (s.chan 5).state = .faulted ∧ s.ring.inProgress = none := by
  refine ⟨?_, ?_⟩
  · constructor <;> decide +kernel
  · decide +kernel

theorem witness_PresenceUpdateFollowsTheEntry :
    ((online.peer 1).state = .present ∧ (online.peer 1).incarnation = some 5 ∧ false = false) ∧
    ¬ ((online.peer 1).state = .present ∧ (online.peer 1).incarnation = some 6 ∧ false = false) ∧
    (online.peer 2).state ≠ .present := by decide +kernel

theorem witness_AnnouncementsAndSilence : Hearing online 1 1 ∧
    ((0 : Byte).toNat < 16 ∧ (0 : Byte) ≠ 1 ∧ (0 : Byte).toNat ≠ online.own ∧ 4 ≤ (9 : Byte).toNat ∧
      (9 : Byte).toNat ≤ 9) ∧
    (∃ t, exec (.leaveHeard 1 5 7) online = .next t) ∧
    ((online.modPeer 1 fun q => { q with silence := .running 40 }).peer 1).silence = .running 40 ∧
    (let s := online.modPeer 1 fun q => { q with state := .absent .left, mark := some 7 }
     Hearing s 1 1 ∧ (∃ reason, (s.peer 1).state = .absent reason) ∧ (s.peer 1).incarnation = some 5 ∧
       (s.peer 1).mark = some 7) ∧
    (online.peer 1).mark ≠ some 7 :=
  ⟨witness_hearing, by decide +kernel, ⟨_, rfl⟩, rfl, ⟨by unfold Hearing; decide +kernel, ⟨_, rfl⟩, rfl, rfl⟩,
    by decide +kernel⟩

theorem witness_AsksAreTakenAndGranted_taken : Hearing online 1 1 ∧ Hearing (base .joining) 1 1 ∧ Hearing (base .leaving) 1 1 ∧
    (1 ≤ (1 : Byte).toNat ∧ (4 : Byte).toNat ≤ 4) ∧ (delivered (base .joining) 1 5).station.state = some .joining ∧
    (delivered (base .leaving) 1 5).station.state = some .leaving ∧
    (delivered online 1 5).station.state = some .online ∧
    (¬ ∃ c ∈ (delivered online 1 5).bus.controlQueue, c.isGrantTo 1 = true) ∧
    ∃ c ∈ (delivered { online with bus := { online.bus with controlQueue := [.grant 1 2 5] } } 1 5).bus.controlQueue,
      c.isGrantTo 1 = true :=
  ⟨witness_hearing, by unfold Hearing; decide +kernel, by unfold Hearing; decide +kernel, by decide +kernel,
    by decide +kernel, by decide +kernel, by decide +kernel, by decide +kernel, by decide +kernel⟩

theorem witness_GrantRaisesTheHeldCredits : Hearing online 1 1 ∧ (1 ≤ (1 : Byte).toNat ∧ (4 : Byte).toNat ≤ 4) ∧
    (delivered online 1 5).station.incarnation = some 0x21 ∧ (delivered online 1 5).station.incarnation ≠ some 0x20 :=
  ⟨witness_hearing, by decide +kernel, by decide +kernel, by decide +kernel⟩

theorem witness_CreditWaitListsAreServed :
    (let s := (online.modPeer 1 fun q => { q with waitList := [4], held := 1 }).setEntry 4 (some (entry .waitingCredit))
     (s.peer 1).waitList = 4 :: [] ∧ 1 ≤ (s.peer 1).held ∧ s.entry 4 = some (entry .waitingCredit) ∧
       (entry .waitingCredit).state = .waitingCredit ∧ (entry .waitingCredit).peer = 1 ∧
       (entry .waitingCredit).seq = some 12 ∧ ({ entry .waitingCredit with seq := none } : Entry).seq = none) ∧
    (let s := online.modPeer 1 fun q => { q with waitList := [4], askTimer := .running 8 }
     (s.peer 1).waitList ≠ [] ∧ (s.peer 1).held = 0 ∧ (s.peer 1).asked = false ∧
       (s.peer 1).askTimer = .running 8 ∧ (∀ y ∈ s.bus.controlQueue, y.isAskTo 1 = false)) ∧
    ([Control.presence, .ask 1 2, .ask 2 2] = [.presence] ++ .ask 1 2 :: [.ask 2 2] ∧
      ∀ y ∈ [Control.presence] ++ [.ask 2 2], y.isAskTo 1 = false) ∧
    (let s := online.modPeer 1 fun q => { q with asked := true, askTimer := .running 8 }
     (s.peer 1).askTimer = .running 8 ∧ (s.peer 1).waitList = [] ∧ (s.peer 1).asked = true) := by decide +kernel

theorem witness_AsksAreTakenAndGranted_granted :
    let s := { online with credit := { online.credit with askList := [{ peer := 1, wanted := 2 }] } }
    s.station.state = some .online ∧ s.credit.askList = { peer := 1, wanted := 2 } :: [] ∧
    s.occupied + s.grantSum < 8 ∧ (s.peer 1).incarnation = some 5 := by decide +kernel

theorem witness_RequestsAreRefusedOrTakeASlot_refused : Hearing online 1 1 ∧
    ((delivered online 1 5).station.state = some .online → (delivered online 1 5).grantCount 1 = 0) ∧
    (15 : Byte).toNat < 16 ∧ (7 : Byte).toNat ≤ 7 ∧ (0xFFFFF : BitVec 24).toNat < 1048576 ∧
    (1 ≤ [(1 : Byte)].length ∧ (List.replicate 64 (0 : Byte)).length ≤ 64) ∧
    (1 ≤ (64 : Byte).toNat ∧ (64 : Byte).toNat ≤ 64) :=
  ⟨witness_hearing, fun _ => by decide +kernel, by decide +kernel, by decide +kernel, by decide +kernel, by decide +kernel,
    by decide +kernel⟩

theorem witness_RequestsAreRefusedOrTakeASlot_taken :
    let s := (online.setGrant 1 1).setSlot 0 (some (slot .replyQueued))
    Hearing s 1 1 ∧ ((delivered s 1 5).station.state = some .online ∧ 1 ≤ (delivered s 1 5).grantCount 1 ∧
    (delivered s 1 5).slot 1 = none ∧ (∀ j < (1 : SlotNo), (delivered s 1 5).slot j ≠ none) ∧ (15 : Byte).toNat < 16 ∧
    (7 : Byte).toNat ≤ 7 ∧ (0xFFFFF : BitVec 24).toNat < 1048576) := by
  unfold Hearing
  decide +kernel

theorem witness_ArrivalChecksDecideInOrder :
    let x := slot .checked
    let s := slot0 x
    s.slot 0 = some x ∧ (x.kind = .write ∧ x.stale = false) ∧ (s.window 2).enabled = true ∧
    x.offset + x.length ≤ (s.window 2).length ∧
    -- recorded
    (∃ pair ∈ ((s.modPeer 1 fun q => { q with served := [{ seq := 20, status := .done }] }).peer 1).served, pair.seq = x.seq) ∧
    -- copied: slot 1 performs the earlier copy
    ((s.setSlot 1 (some (slot .accessing))).slot 1 = some (slot .accessing) ∧ (slot .accessing).seq = x.seq) ∧
    -- denied, and out of range
    ((online.setSlot 0 (some x)).window 2).enabled = false ∧
    (let u := s.setWindowAt 2 { window2 with length := 19 }
     (u.window 2).mask.getLsbD 1 = true ∧ (u.window 2).length < x.offset + x.length) := by decide +kernel

theorem witness_SlotsReplyRecordAndNotify : (slot0 (slot .accessing)).slot 0 = some (slot .accessing) ∧
    ((slot .accessing).kind = .read ∨ ReplyStatus.localError ≠ .done ∨ ((slot0 (slot .accessing)).window 2).watch = false) ∧
    (slot .accessing).kind = .write ∧ ((slot0 (slot .accessing)).window 2).watch = true ∧
    ((slot0 (slot .accessing)).window 2).notice = none ∧
    (let n : Notice := { firstPeer := 1, firstOffset := 16, lastPeer := 1, count := 65535 }
     ((online.setWindowAt 2 { window2 with notice := some n }).window 2).notice = some n) := by decide +kernel

theorem witness_InboundAccessEndAnswersTheSlot :
    let s := accessing (slot0 (slot .accessing)) (.inboundWrite 0) false
    let access : Access := { requester := .inboundWrite 0, addr := 0x1000, length := 4, bytes := [] }
    s.port.current = some { access, dropped := false } ∧
    access.requester = (match (slot .accessing).kind with
      | .write => .inboundWrite 0
      | .read => .inboundRead 0) ∧
    s.slot 0 = some (slot .accessing) ∧
    (let x := { slot .accessing with kind := .read }
     let t := accessing (slot0 x) (.inboundRead 0) false
     t.slot 0 = some x ∧ (t.port.current.map fun cur => (cur.access.requester, cur.dropped)) = some (.inboundRead 0, false)) ∧
    (accessing online (.inboundWrite 0) true).port.current = some { access, dropped := true } := by decide +kernel

theorem witness_BusSlotsAndColdGuards : (2 ≤ 6 ∧ 5 < 6) ∧ online.own < online.stationCount ∧
    (let s := { online with bus := { online.bus with slotRef := .warm 2 } }
     s.bus.slotRef = .warm 2 ∧ (2 : Station).val < s.stationCount ∧ s.station.state = some .online ∧
       s.bus.transmit = none ∧ s.bus.line = .idle ∧ s.bus.slotClock ≤ 0 ∧
       (s.own + s.stationCount - (2 : Station).val - 1) % s.stationCount = 0) ∧
    online.bus.slotRef = .cold ∧ (online.bus.slotClock < 17 ∧ 2 * online.stationCount + 2 + online.own ≤ 17) ∧
    ¬ 2 * online.stationCount + 2 + online.own ≤ 16 := by decide +kernel

theorem witness_SendTakesOneMessage : online.station.incarnation = some 0x21 ∧
    ({ online with bus := { online.bus with replyQueue := [reply .refusal] } } : State).bus.replyQueue
      = reply .refusal :: [] ∧ online.bus.replyQueue = [] ∧
    ({ online with bus := { online.bus with controlQueue := [.ask 1 2] } } : State).bus.controlQueue = .ask 1 2 :: [] ∧
    (let s := { online with bus := { online.bus with requestQueue := [4] } }.setEntry 4 (some (entry .queued))
     s.bus.controlQueue = [] ∧ s.bus.requestQueue = 4 :: [] ∧ s.entry 4 = some (entry .queued) ∧
       (entry .queued).seq = some 12 ∧ s.carried 1 ≠ []) ∧ online.carried 1 = [] := by decide +kernel

theorem witness_TransmissionEndIsReported :
    (sent (.control .leave) false 0 []).bus.transmit = some (sending (.control .leave)) ∧
    (sending (.control .leave)).withdrawn = false ∧ ({ sending (.control .leave) with withdrawn := true }).withdrawn = true ∧
    (sending (.reply (reply (.slot 0)))).item = .reply (reply (.slot 0)) ∧ (reply (.slot 0)).owner = .slot 0 ∧
    (reply .refusal).owner = .refusal ∧ (Control.presence ≠ .leave) ∧
    ((sent (.request 4) false 0 []).setEntry 4 (some (entry .queued))).entry 4 = some (entry .queued) ∧
    (sent (.request 4) false 0 []).entry 4 = none := by decide +kernel

theorem witness_ClashReturnsTheMessage :
    (sent (.control .presence) false 2 []).bus.transmit = some (sending (.control .presence)) ∧
    2 ≤ (sent (.control .presence) false 2 []).bus.clashCount ∧
    (sent (.control (.ask 1 2)) false 1 []).bus.clashCount < 2 ∧
    (∀ y ∈ [Control.ask 2 1, .leave], (Control.ask 1 2).sameGroup y = false) ∧
    ([Control.leave, .ask 1 3] = [.leave] ++ .ask 1 3 :: [] ∧ ∀ y ∈ [Control.leave] ++ [], y.isAskTo 1 = false) ∧
    ([Control.ask 1 3, .leave] = [.ask 1 3] ++ .leave :: [] ∧ ∀ y ∈ [Control.ask 1 3] ++ [], y.isAnnouncement = false) ∧
    (sent (.control .join) false 0 [.presence]).bus.controlQueue = [] ++ .presence :: [] ∧
    ((sent (.request 4) false 1 []).setEntry 4 (some (entry .queued))).entry 4 = some (entry .queued) ∧
    (entry .queued).aborting = false ∧ ({ entry .queued with aborting := true } : Entry).aborting = true := by
  decide +kernel

theorem witness_RepliesAndTimeoutsSettleEntries : Hearing online 1 1 ∧ (15 : Byte).toNat < 16 ∧
    (1 ≤ (List.replicate 64 (0 : Byte)).length ∧ (List.replicate 64 (0 : Byte)).length ≤ 64) ∧
    (let s := online.setEntry 4 (some (entry .sent))
     let e := entry .sent
     s.entry 4 = some e ∧ e.peer = 1 ∧ e.seq = some 12 ∧ s.station.incarnation = some 0x21 ∧ e.kind = .write ∧
       (e.state = .waitingCredit ∨ e.state = .queued ∨ e.state = .sent)) ∧
    (let e := { entry .sent with replyTimer := .running 8 }
     (online.setEntry 4 (some e)).entry 4 = some e ∧ e.state = .sent ∧ e.replyTimer = .running 8 ∧
       e.aborting = false ∧ e.attempts < online.attemptLimit ∧ online.attemptLimit ≤ ({ e with attempts := 3 }).attempts) :=
  ⟨witness_hearing, by decide +kernel, by decide +kernel, by decide +kernel, by decide +kernel⟩

theorem witness_DescriptorValidation : twoRowPut.length = 32 ∧ waitDesc.length = 32 := by decide +kernel

theorem witness_EntryAllocationIssuesAPiece :
    let s := { (chan0 fun ch => { ch with state := .running, copy := some twoRowPut }).setEntry 0 (some (entry .sent))
      with readyList := [0] }
    s.readyList = 0 :: [] ∧ s.entry 1 = none ∧ (∀ u < (1 : Tag), s.entry u ≠ none) ∧
    (s.chan 0).copy = some twoRowPut ∧ s.qualifies 0 = true ∧ descKind twoRowPut = 0 ∧ descKind (desc 1 0 4 0 0x100 0 64 3 1 0 0 0 0) ≠ 0 := by
  decide +kernel

theorem witness_OutcomesAreCountedAndEndDescriptors_outcome : (online.setEntry 4 (some (entry .sent))).entry 4 = some (entry .sent) := by
  decide +kernel

theorem witness_OutcomesAreCountedAndEndDescriptors_end :
    (let ch := ((chan0 fun ch => { ch with state := .draining, copy := some twoRowPut, next := 6 }).chan 0)
     (ch.state = .running ∨ ch.state = .draining) ∧ ch.owned = 0 ∧ (descPieces ch.desc ≤ ch.next ∨ ch.flag ≠ .none)) ∧
    ¬ ((online.chan 0).state = .running ∨ (online.chan 0).state = .draining) := by decide +kernel

theorem witness_CompletingRecordsThenLeaves :
    (∀ status ∈ [PendingStatus.done, .partly, .faulted, .aborted],
      ((chan0 fun ch => { ch with copy := some twoRowPut, pending := some status }).chan 0).pending = some status) ∧
    (twoRowPut.getD 1 0#8).getLsbD 0 = true ∧ ((desc 0 2 4 1 0 0 1 0 1 0 0 0x20 0).getD 1 0#8).getLsbD 0 = false ∧
    (online.chan 0).copy = none ∧ (online.chan 0).done ≤ 1048576 ∧ (online.chan 0).failed ≤ 1048576 ∧
    (online.chan 0).addr.getD 0 ≤ 0xFFFFE0 := by decide +kernel

theorem witness_DescriptorFetchEndDecides :
    (let s := accessing (chan0 fun ch => { ch with state := .fetching }) (.fetch 0) false
     (s.port.current.map (·.access.requester)) = some (.fetch 0) ∧ (s.port.current.map (·.dropped)) = some false ∧
       (s.chan 0).state = .fetching ∧ (s.chan 0).flag = .none ∧ descValid s.own s.stationCount twoRowPut = true ∧
       descValid s.own s.stationCount waitDesc = true ∧ (twoRowPut.getD 0 0#8).toNat ≤ 1 ∧
       (waitDesc.getD 0 0#8).toNat = 2 ∧ ¬ descValid s.own s.stationCount (.replicate 32 0) = true) ∧
    endedOk (.error 0 false true []) = false ∧
    ((chan0 fun ch => { ch with state := .fetching, flag := .aborting }).chan 0).flag = .aborting ∧
    ((chan0 fun ch => { ch with state := .fetching, flag := .stopping }).chan 0).flag = .stopping ∧
    ((accessing online (.fetch 0) true).port.current.map (·.dropped)) = some true := by decide +kernel

theorem witness_OutboundAccessEndsAreReported :
    (let s := accessing (online.setEntry 4 (some (entry .loading))) (.load 4) false
     (s.port.current.map (·.access.requester)) = some (.load 4) ∧ s.entry 4 = some (entry .loading) ∧
       (entry .loading).state = .loading ∧ (entry .loading).retireReason = none ∧ (entry .loading).aborting = false ∧
       [1#8, 2, 3, 4].length = (entry .loading).length ∧
       ({ entry .loading with retireReason := some .peerLost } : Entry).retireReason = some .peerLost) ∧
    (let s := accessing (online.setEntry 4 (some (entry .storing))) (.store 4) false
     (s.port.current.map (·.access.requester)) = some (.store 4) ∧ s.entry 4 = some (entry .storing) ∧
       (entry .storing).state = .storing) ∧
    (let s := accessing { online with ring := { online.ring with inProgress := some 2 } } (.record 2) false
     (s.port.current.map (·.access.requester)) = some (.record 2) ∧ s.ring.inProgress = some 2) ∧
    endedOk (.ok []) = true ∧ ¬ endedOk (.error 1 true true []) = true := by decide +kernel

theorem witness_PortRingAndDrainSteps :
    ((base .leaving).station.state = some .leaving ∧ (∀ i, (base .leaving).slot i = none) ∧
      (base .leaving).bus.replyQueue = [] ∧ (base .leaving).leavePending = false ∧
      (∀ y ∈ (base .leaving).bus.controlQueue, y.isAnnouncement = false)) ∧
    (let s := { base .leaving with bus := { (base .leaving).bus with controlQueue := [.ask 1 2, .presence] } }
     s.leavePending = false ∧ s.bus.controlQueue = [.ask 1 2] ++ .presence :: [] ∧
       ∀ z ∈ [Control.ask 1 2] ++ [], z.isAnnouncement = false) ∧
    (let r : Record :=
      { chan := 3, status := .aborted, code := none, done := 3, failed := 0, addr := 0x3400, tagWord := [0, 0, 0, 0] }
     let s := { online.modChan 3 fun ch => { ch with record := some r } with ring := { online.ring with
        config := some { base := 0x20000, size := 8 }, producer := 3, consumer := 0xFFFC, waitList := [3] } }
     s.ring.waitList = 3 :: [] ∧ s.ring.inProgress = none ∧ s.ring.config = some { base := 0x20000, size := 8 } ∧
       (s.ring.producer - s.ring.consumer).toNat < 8 ∧ (s.chan 3).record = some r) ∧
    online.ring.waitList = [] ∧
    (let g : RingConfig := { base := 0x20000, size := 8 }
     let s := { online with ring := { online.ring with config := some g, producer := 4, consumer := 0xFFFC } }
     s.ring.config = some g ∧ g.size ≤ (s.ring.producer - s.ring.consumer).toNat) ∧
    online.port.current = none ∧
    (let a : Access := { requester := .load 4, addr := 0, length := 4, bytes := [] }
     let b : Access := { requester := .inboundWrite 0, addr := 0, length := 4, bytes := [1, 2, 3, 4] }
     ({ online with port := { online.port with outQueue := [a], inQueue := [b] } } : State).port.outQueue = a :: [] ∧
       online.port.lastSide = .inbound ∧ (slot0 (slot .waitingLocal)).slot 0 = some (slot .waitingLocal) ∧
       b.requester = .inboundWrite 0) := by decide +kernel

theorem witness_WaitsAreJudged :
    let s := chan0 fun ch => { ch with state := .waiting, waitTimer := .running 300 }
    (s.chan 0).state = .waiting ∧ (s.chan 0).waitTimer = .running 300 ∧ online.waitReports = [] ∧
    (∀ t, rendezvous.absentRetire t = none) ∧ rendezvous.waitReports = [(0, .satisfied), (1, .satisfied)] ∧
    rendezvous.judgeWaits.isSome = true := by decide +kernel

/-! ### Invariants -/

theorem witness_EveryStepKeepsTheCreditBooks : CreditBooks books ∧ ∃ t, step books = .next t :=
  ⟨⟨by decide +kernel, by decide +kernel, by decide +kernel, fun h => absurd rfl h, fun h => absurd rfl h⟩, _, rfl⟩

theorem witness_EveryStepKeepsTheAskBooks : CreditBooks books ∧ AskBooks books ∧ ∃ t, step books = .next t :=
  ⟨witness_EveryStepKeepsTheCreditBooks.1,
    ⟨by decide +kernel, by decide +kernel, by decide +kernel, fun h => absurd rfl h⟩, _, rfl⟩

theorem witness_EveryStepKeepsSequencesDistinct : SequencesDistinct books ∧ ∃ t, step books = .next t := by
  refine ⟨fun t u e f q ht hu _ he hf => ?_, _, rfl⟩
  have distinct : ∀ t u : Tag, (books.entry t).bind (·.seq) = (books.entry u).bind (·.seq) →
      ((books.entry t).bind (·.seq)).isSome = true → t = u := by decide +kernel
  exact distinct t u (by simp [ht, hu, he, hf]) (by simp [ht, he])

theorem witness_EveryStepKeepsTheTransactionTable : TableBooks books ∧ ∃ t, step books = .next t :=
  ⟨witness_IsolationTakesTheStationOffTheBus.1, _, rfl⟩

theorem witness_EveryStepKeepsTheQueueBooks : TableBooks books ∧ QueueBooks books ∧ ∃ t, step books = .next t :=
  ⟨witness_IsolationTakesTheStationOffTheBus.1,
    ⟨by decide +kernel, by decide +kernel, by decide +kernel, by decide +kernel, fun _ _ h => by cases h⟩, _, rfl⟩

theorem witness_EveryStepKeepsRingAndCounts : RingKept books ∧ CountsKept books ∧ ∃ t, step books = .next t := by
  refine ⟨⟨.inl rfl, rfl, by decide +kernel, by decide +kernel, fun _ => by decide +kernel⟩,
    ⟨by decide +kernel, by decide +kernel, fun w n h => ?_, fun c f h => ?_⟩, _, rfl⟩
  · have none : ∀ w : WindowNo, (books.window w).notice = none := by decide +kernel
    rw [none w] at h
    cases h
  · have none : ∀ c : Chan, (books.chan c).fault = none := by decide +kernel
    rw [none c] at h
    cases h

theorem witness_MemoryChangesOnlyThroughThePort :
    let s := { online with
      port := { online.port with current := some {
        access := { requester := .store 4, addr := 0x1000, length := 2, bytes := [1, 2] }, dropped := false } }
      pending := [.storeEnd (.ok [])] }
    Memory.wf s.written ∧ (∃ t, step s = .next t ∧ Memory.read t.written 0x1001 ≠ Memory.read s.written 0x1001) ∧
    endsWrite (.store 4) (.error 0 true false []) (.storeEnd (.error 0 true false [])) ∧
    ∃ t, exec (.storeEnd (.error 0 true false [])) s = .next t ∧ Memory.read t.written 0x1000 = some 1 ∧
      Memory.read t.written 0x1001 = none :=
  ⟨by simp [online, base, State.modPeer, State.setPeer, State.reset], ⟨_, rfl, by decide +kernel⟩, rfl, _, rfl,
    by decide +kernel⟩

theorem witness_StationStateChangesAsTheTableSays : BusKept online ∧ ∃ t, exec (.leave 0) online = .next t ∧
    t.station.state ≠ online.station.state :=
  ⟨⟨fun h => absurd rfl h, by decide +kernel, fun h => absurd rfl h⟩, _, rfl, by decide +kernel⟩

theorem witness_StationStateChangesAsTheTableSays_sent :
    let s := { sent (.control .leave) false 0 [] with station := (base .leaving).station }
    s.leavePending = true ∧ s.station.state = some .leaving ∧ ∃ t, exec .transmissionEnd s = .next t ∧
      t.station.state = some .offline := ⟨by decide +kernel, rfl, _, rfl, by decide +kernel⟩

theorem witness_OnlyTheseCommandsChange :
    (∃ t, exec .resetEnd { online with phase := .inReset .pin } = .next t ∧ t.latch.bytes ≠ online.latch.bytes) ∧
    ∃ t, exec (.writeHeard 1 5 9 20 20 2 0 [1]) (online.setGrant 1 1) = .next t ∧
      (online.setGrant 1 1).slot 0 = none ∧ t.slot 0 ≠ none :=
  ⟨⟨_, rfl, by decide +kernel⟩, _, rfl, by decide +kernel, by decide +kernel⟩

theorem witness_CleanupClearsThePeer :
    (∃ x, ((slot0 (slot .waitingLocal)).cleanup 1 .peerLost).slot 0 = some x ∧ x.requester = 1) ∧
    (∀ t, ((books.entry t).map (·.peer)) ≠ some 2) ∧ (books.peer 2).held = 0 ∧
    books.entry 4 = some (entry .sent) ∧ ((entry .sent).peer = 1 ∧ (entry .sent).state = .sent) ∧
    ∀ u < (4 : Tag), books.entry u = none :=
  ⟨⟨_, rfl, by decide +kernel⟩, by decide +kernel⟩

theorem witness_OwnStepsLeaveTheRestAlone : State.reset.ownStep = none ∧
    ({ online with credit := { online.credit with askList := [{ peer := 1, wanted := 2 }] } } : State).ownStep ≠ none := by
  decide +kernel

theorem witness_OnlyTheseCommandsChange_registers :
    (∃ t, exec (.softReset 0) online = .next t ∧ t.latch.cause ≠ online.latch.cause) ∧
    (∃ t, exec (.registerWrite 0x0C 7) online = .next t ∧ t.host.params ≠ online.host.params) ∧
    (∃ t, exec (.attnenWrite 0x10) online = .next t ∧ t.host.attnen ≠ online.host.attnen) ∧
    (∃ t, exec (.readWindow 7) online = .next t ∧ t.host.views ≠ online.host.views) ∧
    ∃ t, exec (.clear 0) online = .next t ∧ t.host.cmd ≠ online.host.cmd ∧ t.host.result ≠ online.host.result := by
  refine ⟨⟨_, rfl, ?_⟩, ⟨_, rfl, ?_⟩, ⟨_, rfl, ?_⟩, ⟨_, rfl, ?_⟩, _, rfl, ?_⟩ <;> decide +kernel

theorem witness_OnlyTheseCommandsChange_tables :
    (let s := params (base .offline) 0x0000 0x0004 0x1000 0x0012
     ∃ t, exec (.setWindow 0xF2) s = .next t ∧ { t.window 2 with notice := none } ≠ { s.window 2 with notice := none }) ∧
    (let s := params (base .offline) 0x0000 0x0002 0x0010 0
     ∃ t, exec (.setRing 0) s = .next t ∧ t.ring.config ≠ s.ring.config) ∧
    (let s := { params (base .offline) 0xFF 0 0 0 with ring := { (base .offline).ring with
        config := some { base := 0x20000, size := 8 } } }
     ∃ t, exec (.join 0) s = .next t ∧ t.station.incarnation ≠ s.station.incarnation) ∧
    (let s := { online with ring := { online.ring with config := some { base := 0x20000, size := 8 }, producer := 8 } }
     ∃ t, exec (.consumerWrite 8) s = .next t ∧ t.ring.consumer ≠ s.ring.consumer) ∧
    (let s := { accessing online (.record 0) false with ring := { online.ring with
        config := some { base := 0x20000, size := 8 }, inProgress := some 0 } }
     ∃ t, exec (.recordWriteEnd (.ok [])) s = .next t ∧ t.ring.producer ≠ s.ring.producer) ∧
    (let s := accessing (slot0 (slot .accessing)) (.inboundWrite 0) false
     ∃ t n, exec (.inboundAccessEnd (.ok [])) s = .next t ∧ (t.window 2).notice = some n ∧
       (s.window 2).notice ≠ some n) := by
  constructor
  · exact ⟨_, rfl, by decide +kernel⟩
  refine ⟨⟨_, rfl, ?_⟩, ⟨_, rfl, ?_⟩, ⟨_, rfl, ?_⟩, ⟨_, rfl, ?_⟩, _, _, rfl, rfl, ?_⟩ <;> decide +kernel

end Sys2Proof.Tests
end

section
/-! SUPPORT. The two sets of books that the peer bus keeps, the queue books (R32, R33, R53) and the ask books (R31, R61 to R63):
what they read of a state, and which operations leave all of that alone. -/
namespace Sys2Proof.PeerBus

open Sys2Proof Sys2Proof.Machine Sys2Proof.Safety

-- Each thread of the elaborator reserves 1 GB under the memory limit of the check.
set_option Elab.async false

/-! ## What the books read -/

/-- What the queue books read of an entry, and what an abort reads of it. -/
structure Standing where
  peer : Station
  state : EntryState
  inTransmission : Bool
  chan : Chan
  aborting : Bool

/-- The standing of an entry. -/
def standingOf (e : Entry) : Standing :=
  { peer := e.peer, state := e.state, inTransmission := e.inTransmission, chan := e.chan, aborting := e.aborting }

/-- The standing of the entry with tag `u`; absent while it is FREE. -/
def standing (s : State) (u : Tag) : Option Standing := (s.entry u).map standingOf

/-- Outside the running phase there is no station state and no transmission (R1). -/
def SilentKept (s : State) : Prop := s.phase ≠ .running → s.station.state = none ∧ s.bus.transmit = none

/-- From one bus interface to another the books find the same requests, GRANTs and ASKs; a transmission may have ended. -/
structure SameLine (b b' : BusInterface) : Prop where
  requestQueue : b'.requestQueue = b.requestQueue
  transmit : b'.transmit = b.transmit ∨ b'.transmit = none
  grants : ∀ p, b'.controlQueue.countP (Control.isGrantTo p) = b.controlQueue.countP (Control.isGrantTo p)
  asks : ∀ p, b'.controlQueue.countP (Control.isAskTo p) = b.controlQueue.countP (Control.isAskTo p)

/-- From one state to another both books find the same, but for a transmission that may have ended; and an ONLINE station
is still so. -/
structure SameBooks (s t : State) : Prop where
  bus : SameLine s.bus t.bus
  waitList : ∀ p, (t.peer p).waitList = (s.peer p).waitList
  standing : ∀ u, standing t u = standing s u
  askList : t.credit.askList = s.credit.askList
  grantCount : ∀ p, t.grantCount p = s.grantCount p
  silent : SilentKept s → SilentKept t
  online : SilentKept s → s.station.state = some .online → t.station.state = some .online

/-- No book has anything in it, and the station is not ONLINE. -/
structure BooksEmpty (s : State) : Prop where
  requestQueue : s.bus.requestQueue = []
  transmit : s.bus.transmit = none
  grants : ∀ p, s.bus.controlQueue.countP (Control.isGrantTo p) = 0
  asks : ∀ p, s.bus.controlQueue.countP (Control.isAskTo p) = 0
  waitList : ∀ p, (s.peer p).waitList = []
  askList : s.credit.askList = []
  grantCount : ∀ p, s.grantCount p = 0
  offline : s.station.state ≠ some .online

variable {s t u : State} {b b' b'' : BusInterface}

theorem SameLine.refl (b : BusInterface) : SameLine b b := ⟨rfl, .inl rfl, fun _ => rfl, fun _ => rfl⟩

theorem SameLine.of_eq (h : b' = b) : SameLine b b' := h ▸ SameLine.refl b

theorem SameLine.trans (h : SameLine b b') (h' : SameLine b' b'') : SameLine b b'' where
  requestQueue := h'.requestQueue.trans h.requestQueue
  transmit := by
    rcases h'.transmit with e | e
    · exact e ▸ h.transmit
    · exact .inr e
  grants p := (h'.grants p).trans (h.grants p)
  asks p := (h'.asks p).trans (h.asks p)

theorem SameBooks.trans (h : SameBooks s t) (h' : SameBooks t u) : SameBooks s u where
  bus := h.bus.trans h'.bus
  waitList p := (h'.waitList p).trans (h.waitList p)
  standing v := (h'.standing v).trans (h.standing v)
  askList := h'.askList.trans h.askList
  grantCount p := (h'.grantCount p).trans (h.grantCount p)
  silent k := h'.silent (h.silent k)
  online k e := h'.online (h.silent k) (h.online k e)

theorem silentKept_of_eq (bus : SameLine s.bus t.bus) (phase : t.phase = s.phase)
    (station : t.station.state = s.station.state) (k : SilentKept s) : SilentKept t := by
  intro h
  obtain ⟨noState, noTransmission⟩ := k (phase ▸ h)
  exact ⟨station.trans noState, bus.transmit.elim (fun e => e.trans noTransmission) id⟩

/-- A change of other blocks than those the books read. -/
theorem SameBooks.of_blocks (bus : SameLine s.bus t.bus) (peers : t.peers = s.peers := by simp)
    (entries : t.entries = s.entries := by simp) (askList : t.credit.askList = s.credit.askList := by simp)
    (grants : t.credit.grants = s.credit.grants := by simp) (phase : t.phase = s.phase := by simp)
    (station : t.station.state = s.station.state := by simp) : SameBooks s t where
  bus := bus
  waitList p := by rw [State.peer, peers, State.peer]
  standing v := by rw [PeerBus.standing, PeerBus.standing, State.entry, entries, State.entry]
  askList := askList
  grantCount p := by rw [State.grantCount, grants, State.grantCount]
  silent k := silentKept_of_eq bus phase station k
  online _ e := by rwa [station]

theorem sameBooks_host (s : State) (x : HostPort) : SameBooks s { s with host := x } := .of_blocks (.refl _)

theorem sameBooks_answer (s : State) (code : Byte) (r : ResultCode) : SameBooks s (s.answer code r) :=
  .of_blocks (.refl _)

theorem sameBooks_port (s : State) (x : LocalPort) : SameBooks s { s with port := x } := .of_blocks (.refl _)

theorem sameBooks_queueOutbound (s : State) (a : Access) : SameBooks s (s.queueOutbound a) := .of_blocks (.refl _)

theorem sameBooks_ring (s : State) (x : RingUnit) : SameBooks s { s with ring := x } := .of_blocks (.refl _)

theorem sameBooks_setChan (s : State) (c : Chan) (x : Channel) : SameBooks s (s.setChan c x) := .of_blocks (.refl _)

theorem sameBooks_setWait (s : State) (c : Chan) (x : Option WaitMember) : SameBooks s (s.setWait c x) :=
  .of_blocks (.refl _)

theorem sameBooks_setSlot (s : State) (i : SlotNo) (x : Option Slot) : SameBooks s (s.setSlot i x) :=
  .of_blocks (.refl _)

/-- A change of one peer entry that leaves its credit wait list. -/
theorem sameBooks_modPeer (s : State) (q : Station) (f : PeerEntry → PeerEntry)
    (hf : ∀ x : PeerEntry, (f x).waitList = x.waitList := by intro; rfl) : SameBooks s (s.modPeer q f) where
  bus := .refl _
  waitList p := by
    rw [State.peer_modPeer]
    split
    · subst_vars; exact hf _
    · rfl
  standing _ := rfl
  askList := rfl
  grantCount _ := rfl
  silent := id
  online _ := id

theorem sameBooks_returnCredit (s : State) (p : Station) : SameBooks s (s.returnCredit p) := sameBooks_modPeer s p _

/-- The same change of peer entries, one after another, writes the peer entries only. -/
theorem foldl_modPeer_frame (f : PeerEntry → PeerEntry) (l : List Station) (s : State) :
    ∃ x, l.foldl (fun s p => s.modPeer p f) s = { s with peers := x } := by
  induction l generalizing s with
  | nil => exact ⟨_, rfl⟩
  | cons p l ih =>
      obtain ⟨x, h⟩ := ih (s.modPeer p f)
      exact ⟨x, h⟩

theorem SameBooks.refl (s : State) : SameBooks s s := .of_blocks (.refl _)

/-- Steps taken one after another for the members of a list leave the books alone if each does. -/
theorem sameBooks_foldl {α : Type} {f : State → α → State} (h : ∀ s a, SameBooks s (f s a)) (l : List α) (s : State) :
    SameBooks s (l.foldl f s) := by
  induction l generalizing s with
  | nil => exact .refl s
  | cons a l ih => exact (h s a).trans (ih (f s a))

/-- A change of one entry that leaves its standing. -/
theorem sameBooks_setEntry {v : Tag} {e f : Entry} (he : s.entry v = some e) (hf : standingOf f = standingOf e) :
    SameBooks s (s.setEntry v (some f)) where
  bus := .refl _
  waitList _ := rfl
  standing w := by
    simp only [PeerBus.standing, State.entry_setEntry]
    split
    · subst_vars; rw [he]; exact congrArg some hf
    · rfl
  askList := rfl
  grantCount _ := rfl
  silent := id
  online _ := id

/-- No books in one state, none in another that differs in other blocks, or in the entries. -/
theorem BooksEmpty.of_blocks (h : BooksEmpty s) (bus : SameLine s.bus t.bus) (peers : t.peers = s.peers := by simp)
    (credit : t.credit = s.credit := by simp) (station : t.station = s.station := by simp) : BooksEmpty t where
  requestQueue := bus.requestQueue.trans h.requestQueue
  transmit := bus.transmit.elim (fun e => e.trans h.transmit) id
  grants p := (bus.grants p).trans (h.grants p)
  asks p := (bus.asks p).trans (h.asks p)
  waitList p := by rw [State.peer, peers]; exact h.waitList p
  askList := by rw [credit, h.askList]
  grantCount p := by rw [State.grantCount, credit]; exact h.grantCount p
  offline := by rw [station]; exact h.offline

/-! ## The control queue -/

/-- Queuing brings in only the new message. -/
theorem mem_coalesce {q : List Control} {c x : Control} (h : x ∈ coalesce q c) : x ∈ q ∨ x = c := by
  have mapped (f : Control → Bool) (h : x ∈ q.map fun y => if f y then c else y) : x ∈ q ∨ x = c := by
    obtain ⟨y, hy, rfl⟩ := List.mem_map.1 h
    split
    · exact .inr rfl
    · exact .inl hy
  have appended (h : x ∈ q ++ [c]) : x ∈ q ∨ x = c := by simpa using h
  cases c with
  | join => exact appended h
  | grant p n e => exact appended h
  | presence =>
      simp only [coalesce] at h
      split at h
      · exact .inl h
      · exact appended h
  | leave =>
      simp only [coalesce] at h
      split at h
      · exact mapped _ h
      · exact appended h
  | ask p n =>
      simp only [coalesce] at h
      split at h
      · exact mapped _ h
      · exact appended h

/-- Queuing a message that is no ASK to `p` changes no number of ASKs to `p`. -/
theorem countP_isAskTo_coalesce (q : List Control) {c : Control} {p : Station} (hc : c.isAskTo p = false) :
    (coalesce q c).countP (Control.isAskTo p) = q.countP (Control.isAskTo p) := by
  have mapped (f : Control → Bool) (hf : ∀ y, f y = true → y.isAskTo p = false) :
      (q.map fun y => if f y then c else y).countP (Control.isAskTo p) = q.countP (Control.isAskTo p) := by
    rw [List.countP_map]
    refine List.countP_congr fun y _ => ?_
    simp only [Function.comp]
    split
    · rw [hc, hf y ‹_›]
    · rfl
  have appended : (q ++ [c]).countP (Control.isAskTo p) = q.countP (Control.isAskTo p) := by
    simp [List.countP_append, hc]
  have announcement (y : Control) (hy : y.isAnnouncement = true) : y.isAskTo p = false := by
    cases y with
    | join | presence | leave | grant _ _ _ => rfl
    | ask _ _ => cases hy
  cases c with
  | join => exact appended
  | grant r n e => exact appended
  | presence =>
      simp only [coalesce]
      split
      · rfl
      · exact appended
  | leave =>
      simp only [coalesce]
      split
      · exact mapped _ announcement
      · exact appended
  | ask r n =>
      simp only [coalesce]
      split
      · refine mapped _ fun y hy => ?_
        cases y with
        | ask r' n' => simp_all [Control.isAskTo]
        | join | presence | leave | grant _ _ _ => rfl
      · exact appended

/-- Queuing an announcement leaves requests, GRANTs and ASKs as they are. -/
theorem sameLine_queueControl (s : State) {c : Control} (hc : c.isCredit = false) :
    SameLine s.bus (s.queueControl c).bus where
  requestQueue := rfl
  transmit := .inl rfl
  grants p := by
    have : c.isGrantTo p = false := by cases c <;> simp_all [Control.isCredit, Control.isGrantTo]
    simp [State.queueControl, countP_isGrantTo_coalesce, this, bit]
  asks p := countP_isAskTo_coalesce _ (by cases c <;> simp_all [Control.isCredit, Control.isAskTo])

theorem sameLine_queuePresence (s : State) : SameLine s.bus s.queuePresence.bus := by
  unfold State.queuePresence
  split
  · exact .refl _
  · exact sameLine_queueControl s rfl

theorem sameLine_advanceMark (s : State) : SameLine s.bus s.advanceMark.bus := by
  simp only [State.advanceMark]
  split
  · exact sameLine_queuePresence { s with marks := { s.marks with own := s.marks.own + 1#16 } }
  · exact .refl _

/-! ## The channel engine leaves the books alone -/

theorem sameLine_leaveCompleting (s : State) (c : Chan) : SameLine s.bus (s.leaveCompleting c).bus := by
  simp only [State.leaveCompleting]
  split
  · split
    · exact (sameLine_advanceMark (s.modChan c Channel.outOfCompleting)).trans (.of_eq (by simp))
    · exact .of_eq (by simp)
  all_goals exact .of_eq (by simp)

theorem sameLine_complete (s : State) (c : Chan) (status : PendingStatus) :
    SameLine s.bus (s.complete c status).bus := by
  simp only [State.complete]
  split
  · exact .of_eq (by simp)
  · exact sameLine_leaveCompleting (s.setChan c _) c

theorem sameLine_takeReport (s : State) (c : Chan) (r : WaitReport) : SameLine s.bus (s.takeReport c r).bus := by
  cases r with
  | satisfied => exact sameLine_complete ((s.setWait c none).modChan c _) c _
  | lost p => exact sameLine_complete ((s.setWait c none).modChan c _) c _
  | still => exact .refl _

theorem sameLine_deliverReports (fuel : Nat) (l : List (Chan × WaitReport)) (s : State) :
    SameLine s.bus (State.deliverReports fuel l s).bus := by
  induction fuel generalizing l s with
  | zero => exact .refl _
  | succ n ih =>
      cases l with
      | nil => exact .refl _
      | cons r rest =>
          have left := SameLine.of_eq (State.leaveWaitSet_bus (s.takeReport r.1 r.2) (s.takeReport r.1 r.2).waitReports)
          exact ((sameLine_takeReport s r.1 r.2).trans left).trans (ih _ _)

theorem sameBooks_complete (s : State) (c : Chan) (status : PendingStatus) : SameBooks s (s.complete c status) :=
  .of_blocks (sameLine_complete s c status)

theorem sameBooks_leaveCompleting (s : State) (c : Chan) : SameBooks s (s.leaveCompleting c) :=
  .of_blocks (sameLine_leaveCompleting s c)

theorem sameBooks_failChannel (s : State) (c : Chan) (code : FaultCode) (p : Option Station) :
    SameBooks s (s.failChannel c code p) := .of_blocks (sameLine_complete (s.modChan c _) c .faulted)

theorem sameBooks_waitLost (s : State) (c : Chan) (p : Station) : SameBooks s (s.waitLost c p) :=
  .of_blocks (sameLine_takeReport s c (.lost p))

theorem sameBooks_deliverReports (fuel : Nat) (l : List (Chan × WaitReport)) (s : State) :
    SameBooks s (State.deliverReports fuel l s) := .of_blocks (sameLine_deliverReports fuel l s)

theorem sameBooks_testRecordWrite (s : State) : SameBooks s s.testRecordWrite := .of_blocks (.of_eq (by simp))

theorem sameBooks_retestReady (s : State) : SameBooks s s.retestReady := .of_blocks (.refl _)

theorem sameBooks_advanceMark (s : State) : SameBooks s s.advanceMark := .of_blocks (sameLine_advanceMark s)

theorem sameBooks_queuePresence (s : State) : SameBooks s s.queuePresence := .of_blocks (sameLine_queuePresence s)

/-- The notice that fails the WAITs on a peer (R155 case 1). -/
theorem sameBooks_failWaitsOn (s : State) (p : Station) : SameBooks s (s.failWaitsOn p) := by
  refine sameBooks_foldl (fun s c => ?_) _ s
  split
  · split
    · exact sameBooks_waitLost s c p
    · exact .refl s
  · exact .refl s

/-- The end of a descriptor fetch (R109, R110). -/
theorem sameBooks_endFetch (s : State) (c : Chan) (data : Option (List Byte)) : SameBooks s (s.endFetch c data) := by
  have set := sameBooks_setChan s c
  simp only [State.endFetch]
  split
  · exact .refl s
  split
  · split
    · exact (set _).trans (sameBooks_complete _ c _)
    all_goals exact sameBooks_failChannel s c _ _
  split
  · exact (set _).trans (sameBooks_complete _ c _)
  · exact (set _).trans (sameBooks_complete _ c _)
  split
  · unfold State.beginDescriptor
    split
    all_goals exact .of_blocks (.refl _)
  · exact (set _).trans (sameBooks_failChannel _ c _ _)

/-- The end of a record write (R167, R168). -/
theorem sameBooks_endRecord (s : State) (c : Chan) (ok : Bool) : SameBooks s (s.endRecord c ok) := by
  have set := sameBooks_ring s
  unfold State.endRecord
  split
  · split
    · exact ((set _).trans (sameBooks_leaveCompleting _ c)).trans (sameBooks_testRecordWrite _)
    · have lost (u : State) : SameBooks u (u.loseRecord c) := .of_blocks (.refl _) rfl rfl rfl rfl rfl rfl
      exact ((set _).trans (lost _)).trans (sameBooks_testRecordWrite _)
  · exact .refl s

/-! ## The inbound server and the peer table leave the books alone -/

/-- A change of the host port, the line and other fields that the books do not read. -/
theorem sameBooks_activityEnd (s : State) (r : SlotRef) : SameBooks s (s.activityEnd r) :=
  .of_blocks ⟨rfl, .inl rfl, fun _ => rfl, fun _ => rfl⟩ rfl rfl rfl rfl rfl rfl

theorem sameBooks_countTo (s : State) (n : Nat) : SameBooks s (s.countTo n) :=
  .of_blocks ⟨rfl, .inl rfl, fun _ => rfl, fun _ => rfl⟩

theorem sameBooks_queueReply (s : State) (r : QueuedReply) : SameBooks s (s.queueReply r) :=
  .of_blocks ⟨rfl, .inl rfl, fun _ => rfl, fun _ => rfl⟩

theorem sameBooks_applyWrite (s : State) (a : Access) (e : AccessEnd) : SameBooks s (s.applyWrite a e) := by
  unfold State.applyWrite
  split <;> exact .of_blocks (.refl _)

theorem sameBooks_replySlot (s : State) (i : SlotNo) (status : ReplyStatus) : SameBooks s (s.replySlot i status) := by
  unfold State.replySlot
  split
  · exact .refl s
  · exact (sameBooks_setSlot s i _).trans (sameBooks_queueReply _ _)

theorem sameBooks_recordServed (s : State) (x : Slot) (status : ReplyStatus) :
    SameBooks s (s.recordServed x status) := by
  unfold State.recordServed
  split
  · exact sameBooks_modPeer s _ _
  · exact .refl s

theorem sameBooks_checkWindow (s : State) (i : SlotNo) (x : Slot) : SameBooks s (s.checkWindow i x) := by
  have refuse (status : ReplyStatus) : SameBooks s (s.refuseSlot i x status) :=
    (sameBooks_recordServed s x status).trans (sameBooks_replySlot _ i status)
  simp only [State.checkWindow]
  split
  · exact refuse _
  split
  · exact refuse _
  · exact .of_blocks (.refl _)

theorem sameBooks_checkArrival (s : State) (i : SlotNo) (x : Slot) : SameBooks s (s.checkArrival i x) := by
  unfold State.checkArrival
  split
  · exact sameBooks_checkWindow s i x
  split
  · exact sameBooks_replySlot s i _
  split
  · exact .of_blocks (.refl _)
  · exact sameBooks_checkWindow s i x

theorem sameBooks_refusals (s : State) (n : Nat) : SameBooks s { s with credit := { s.credit with refusals := n } } :=
  .of_blocks (.refl _)

theorem sameBooks_refuse (s : State) (r : Request) : SameBooks s (s.refuse r) := by
  unfold State.refuse
  split
  · exact (sameBooks_refusals s _).trans (sameBooks_queueReply _ _)
  · exact .refl s

/-- The end of an inbound access (R81). -/
theorem sameBooks_endSlotAccess (s : State) (i : SlotNo) (first : Nat) (e : AccessEnd) :
    SameBooks s (s.endSlotAccess i first e) := by
  have notice (u : State) (x : Slot) (status : ReplyStatus) : SameBooks u (u.notice x status) := by
    unfold State.notice
    split
    · exact .of_blocks (.refl _)
    · exact .refl u
  unfold State.endSlotAccess
  split
  · exact .refl s
  · have report (x : Slot) (status : ReplyStatus) (u : State) : SameBooks u ((u.recordServed x status).notice x status) :=
      (sameBooks_recordServed u x status).trans (notice _ x status)
    have answer (status : ReplyStatus) (l : List SlotNo) (u : State) :
        SameBooks u (l.foldl (fun s j => s.replySlot j status) (u.replySlot i status)) :=
      (sameBooks_replySlot u i status).trans (sameBooks_foldl (fun v j => sameBooks_replySlot v j status) l _)
    exact ((sameBooks_setSlot s i _).trans (report _ _ _)).trans (answer _ _ _)

theorem sameBooks_markStale (s : State) (p : Station) : SameBooks s (s.markStale p) := by
  unfold State.markStale
  refine sameBooks_foldl (fun s i => ?_) _ s
  exact .of_blocks (.refl _)

theorem clearSequences_frame (s : State) : ∃ x, s.clearSequences = { s with peers := x } :=
  foldl_modPeer_frame (fun q => { q with nextSeq := 0#8 }) allStations s

theorem sameBooks_clearSequences (s : State) : SameBooks s s.clearSequences := by
  unfold State.clearSequences
  refine sameBooks_foldl (fun s p => ?_) _ s
  exact sameBooks_modPeer s p _

/-- A peer entry heard PRESENT (R38). -/
theorem sameBooks_hearPresent (s : State) (p : Station) (inc : Byte) (mark : Option Word) :
    SameBooks s (s.hearPresent p inc mark) := sameBooks_modPeer s p _

theorem sameBooks_addChange (s : State) (p : Station) : SameBooks s (s.addChange p) := .of_blocks (.refl _)

end Sys2Proof.PeerBus
end

section
/-! SUPPORT. From the operations that touch the queue books or the ask books to every command: what each of these keeps, every
step keeps. -/
namespace Sys2Proof.PeerBus

open Sys2Proof Sys2Proof.Machine Sys2Proof.Safety

-- Each thread of the elaborator reserves 1 GB under the memory limit of the check.
set_option Elab.async false

/-- `P` speaks of the books only, and the part's own steps that touch them keep it. -/
structure OwnStepsKeep (P : State → Prop) : Prop where
  same : ∀ {s t : State}, SameBooks s t → P s → P t
  absentRetire : ∀ {s t : State} {u : Tag}, s.absentRetire u = some t → P s → P t
  creditHanding : ∀ {s t : State} {p : Station}, s.creditHanding p = some t → P s → P t
  ask : ∀ {s : State} (p : Station), P s → P (s.ask p)
  entryAllocation : ∀ {s t : State}, s.entryAllocation = some t → P s → P t
  granting : ∀ {s t : State}, s.granting = some t → P s → P t

/-- The operations of the commands that touch the books keep `P` as well, and a state without books has it. -/
structure EventsKeep (P : State → Prop) : Prop extends OwnStepsKeep P where
  empty : ∀ {s t : State}, BooksEmpty t → (SilentKept s → SilentKept t) → P s → P t
  cleanupEntry : ∀ {s : State} {u : Tag} {e : Entry} (why : FaultCode), s.entry u = some e → P s →
    P (s.cleanupEntry why u e)
  cleanupCredit : ∀ {s : State} (p : Station), P s → P (s.cleanupCredit p)
  abortEntries : ∀ {s : State} (c : Chan), P s → P (s.abortEntries c)
  endLoad : ∀ {s : State} {u : Tag} {e : Entry} (o : AccessEnd), s.entry u = some e → e.state = .loading → P s →
    P (s.endLoad u e o)
  endStore : ∀ {s : State} {u : Tag} {e : Entry} (o : PieceOutcome), s.entry u = some e → e.state = .storing → P s →
    P (s.retire u o)
  expireReply : ∀ {s : State} {u : Tag} {e : Entry}, s.entry u = some e → e.state = .sent → P s → P (s.expireReply u e)
  takeReply : ∀ {s : State} (r : ReplyHeard), s.bus.transmit = none → P s → P (s.takeReply r)
  takeAsk : ∀ {s : State} (p : Station) (n : Nat), s.bus.transmit = none → P s → P (s.takeAsk p n)
  takeGrant : ∀ {s : State} (p : Station) (n : Nat) (echo : Byte), P s → P (s.takeGrant p n echo)
  spendGrant : ∀ {s : State} (p : Station), P s → P (s.setGrant p (s.grantCount p - 1))
  enterLeaving : ∀ {s : State}, s.phase = .running → P s → P s.enterLeaving
  send : ∀ {s : State} (repliesOnly : Bool), s.mayTransmit = true → P s → P (s.send repliesOnly)
  requestSent : ∀ {s t : State} {x : Transmission} {u : Tag} (timeout : Nat), s.bus.transmit = some x →
    x.item = .request u → x.withdrawn = false → SameBooks s t → t.bus.transmit = none → P s →
    P (t.modEntry u fun e => e.sentNow timeout)
  returnToQueue : ∀ {s t : State} {x : Transmission}, s.bus.transmit = some x → x.withdrawn = false → SameBooks s t →
    t.bus.controlQueue = s.bus.controlQueue → t.bus.transmit = none → P s → P (t.returnToQueue x.item)

variable {P : State → Prop} {s t : State}

/-! ## The part's own steps -/

theorem sameBooks_accessGrant (h : s.accessGrant = some t) : SameBooks s t := by
  obtain ⟨-, ⟨a, rest, -, -, rfl⟩ | ⟨b, rest, -, -, rfl⟩⟩ := State.accessGrant_spec h
  · exact .of_blocks (.of_eq (by simp))
  · exact .of_blocks (.of_eq (by simp))

theorem sameBooks_descriptorEnd {c : Chan} (h : s.descriptorEnd c = some t) : SameBooks s t := by
  obtain ⟨-, rfl⟩ := State.descriptorEnd_spec h
  exact sameBooks_complete s c _

theorem sameBooks_recordWriteIssue (h : s.recordWriteIssue = some t) : SameBooks s t := by
  have issued : SameBooks s (s.recordWriteIssue.getD s) := sameBooks_testRecordWrite s
  rwa [h] at issued

theorem sameBooks_leaveQueued (h : s.leaveQueued = some t) : SameBooks s t := by
  obtain ⟨-, -, -, -, rfl⟩ := State.leaveQueued_spec h
  exact .of_blocks (sameLine_queueControl s rfl)

theorem sameBooks_judgeWaits (h : s.judgeWaits = some t) : SameBooks s t := by
  obtain ⟨-, rfl⟩ := State.judgeWaits_spec h
  have left : SameBooks s (s.leaveWaitSet s.waitReports) := .of_blocks (.of_eq (by simp))
  exact left.trans (sameBooks_deliverReports _ _ _)

theorem OwnStepsKeep.asking (k : OwnStepsKeep P) {p : Station} (h : s.asking p = some t) (hs : P s) : P t := by
  obtain ⟨-, -, -, rfl⟩ := State.asking_spec h
  exact k.ask p hs

theorem OwnStepsKeep.ownStep (k : OwnStepsKeep P) (h : s.ownStep = some t) (hs : P s) : P t := by
  rcases State.ownStep_cases h with ⟨u, h⟩ | h | ⟨c, h⟩ | h | ⟨p, h⟩ | ⟨p, h⟩ | h | h | h | h
  · exact k.absentRetire h hs
  · exact k.same (sameBooks_judgeWaits h) hs
  · exact k.same (sameBooks_descriptorEnd h) hs
  · exact k.same (sameBooks_recordWriteIssue h) hs
  · exact k.creditHanding h hs
  · exact k.asking h hs
  · exact k.entryAllocation h hs
  · exact k.granting h hs
  · exact k.same (sameBooks_leaveQueued h) hs
  · exact k.same (sameBooks_accessGrant h) hs

theorem OwnStepsKeep.settle (k : OwnStepsKeep P) (hs : P s) : P s.settle :=
  State.settle_induction (fun _ _ hs h => k.ownStep h hs) hs

/-- A row of a step of the part itself: the step is taken if it is due. -/
theorem OwnStepsKeep.ownRow (k : OwnStepsKeep P) {step : Option State} (h : ∀ t, step = some t → P t) (hs : P s) :
    P (s.ownRow step) := by
  unfold State.ownRow
  cases step with
  | none => exact k.settle hs
  | some t => exact k.settle (h t rfl)

/-! ## No transmission -/

/-- The part's own steps begin no transmission. -/
theorem noTransmission_ownSteps : OwnStepsKeep fun s => s.bus.transmit = none where
  same h hs := h.bus.transmit.elim (fun e => e.trans hs) id
  absentRetire h hs := by
    obtain ⟨e, reason, -, -, -, rfl⟩ := State.absentRetire_spec h
    simpa using hs
  creditHanding h hs := by
    obtain ⟨u, rest, e, seq, next, -, -, -, -, -, -, rfl⟩ := State.creditHanding_spec h
    exact hs
  ask _ hs := hs
  entryAllocation h hs := by
    obtain ⟨c, rest, u, -, -, -, rfl⟩ := State.entryAllocation_spec h
    simpa using hs
  granting h hs := by
    obtain ⟨a, rest, -, -, -, g, -, rfl⟩ := State.granting_spec h
    exact hs

theorem cleanupEntry_noTransmission (hs : s.bus.transmit = none) (why : FaultCode) (u : Tag) (e : Entry) :
    (s.cleanupEntry why u e).bus.transmit = none := by
  have withdrawn : (s.withdrawSending u).bus.transmit = none := by simp [State.withdrawSending, hs]
  unfold State.cleanupEntry
  cases e.state with
  | queued => dsimp only; split <;> simpa using ‹_›
  | waitingCredit | sent | loading | storing => simpa using hs

/-! ## Peer cleanup and the update by a heard message -/

/-- A property that the cleanup of one entry and the part's own steps keep is kept by the cleanup of all of them. -/
theorem cleanupEntries_keeps (settle : ∀ s : State, P s → P s.settle)
    (entry : ∀ (s : State) (why : FaultCode) (u : Tag) (e : Entry), s.entry u = some e → P s → P (s.cleanupEntry why u e))
    (p : Station) (why : FaultCode) (fuel : Nat) (hs : P s) : P (State.cleanupEntries p why fuel s) := by
  induction fuel generalizing s with
  | zero => exact hs
  | succ n ih =>
      unfold State.cleanupEntries
      split
      · exact hs
      · split
        · exact hs
        · exact ih (settle _ (entry _ _ _ _ ‹_› hs))

/-- After the entries and the credit state, a cleanup touches no book. -/
theorem cleanup_same (s : State) (p : Station) (why : FaultCode) :
    SameBooks ((State.cleanupEntries p why 64 s).cleanupCredit p) (s.cleanup p why) := by
  unfold State.cleanup
  exact (sameBooks_modPeer _ p _).trans (sameBooks_markStale _ p)

theorem EventsKeep.cleanup (k : EventsKeep P) (p : Station) (why : FaultCode) (hs : P s) : P (s.cleanup p why) :=
  k.same (cleanup_same s p why) (k.cleanupCredit p
    (cleanupEntries_keeps (fun _ h => k.settle h) (fun _ why _ _ he h => k.cleanupEntry why he h) p why 64 hs))

theorem cleanup_noTransmission (hs : s.bus.transmit = none) (p : Station) (why : FaultCode) :
    (s.cleanup p why).bus.transmit = none := by
  have entries : (State.cleanupEntries p why 64 s).bus.transmit = none :=
    cleanupEntries_keeps (P := fun s => s.bus.transmit = none) (fun _ h => noTransmission_ownSteps.settle h)
      (fun _ why u e _ h => cleanupEntry_noTransmission h why u e) p why 64 hs
  have credit : ((State.cleanupEntries p why 64 s).cleanupCredit p).bus.transmit = none := by
    simp [State.cleanupCredit, State.withdrawControl, entries]
  exact noTransmission_ownSteps.same (cleanup_same s p why) credit

/-- After its cleanup, if it makes one, the update by a heard message touches no book. -/
theorem presenceUpdate_same (s : State) (p : Station) (inc : Byte) (mark : Option Word) (isJoin : Bool) :
    SameBooks s (s.presenceUpdate p inc mark isJoin) ∨
      SameBooks (s.cleanup p .peerRestarted) (s.presenceUpdate p inc mark isJoin) := by
  have heard (u : State) : SameBooks u ((u.hearPresent p inc mark).addChange p) :=
    (sameBooks_hearPresent u p inc mark).trans (sameBooks_addChange _ p)
  unfold State.presenceUpdate
  split
  · exact .inl (heard s)
  · exact .inl (heard s)
  split
  · exact .inl (sameBooks_modPeer s p _)
  · exact .inr ((heard _).trans (sameBooks_failWaitsOn _ p))

theorem EventsKeep.presenceUpdate (k : EventsKeep P) (p : Station) (inc : Byte) (mark : Option Word) (isJoin : Bool)
    (hs : P s) : P (s.presenceUpdate p inc mark isJoin) :=
  (presenceUpdate_same s p inc mark isJoin).elim (k.same · hs) (k.same · (k.cleanup p _ hs))

theorem presenceUpdate_noTransmission (hs : s.bus.transmit = none) (p : Station) (inc : Byte) (mark : Option Word)
    (isJoin : Bool) : (s.presenceUpdate p inc mark isJoin).bus.transmit = none :=
  (presenceUpdate_same s p inc mark isJoin).elim (noTransmission_ownSteps.same · hs)
    (noTransmission_ownSteps.same · (cleanup_noTransmission hs p _))

theorem EventsKeep.leaveUpdate (k : EventsKeep P) (p : Station) (inc : Byte) (mark : Word) (hs : P s) :
    P (s.leaveUpdate p inc mark) := by
  have absent := k.same (sameBooks_addChange _ p) (k.same (sameBooks_modPeer _ p fun q =>
    { q with state := .absent .left, incarnation := some inc, mark := some mark, silence := .stopped })
      (k.cleanup p .peerLeft hs))
  exact iteInduction (motive := P) (fun _ => absent) fun _ => k.same (sameBooks_failWaitsOn _ p) absent

theorem EventsKeep.silenceUpdate (k : EventsKeep P) (p : Station) (hs : P s) : P (s.silenceUpdate p) := by
  have cleaned := k.cleanup p .peerLost hs
  unfold State.silenceUpdate
  exact k.same (sameBooks_failWaitsOn _ p)
    (k.same (sameBooks_addChange _ p) (k.same (sameBooks_modPeer _ p _) cleaned))

/-! ## Isolation -/

/-- An operation that keeps the books empty, the phase and the station. -/
structure KeepsEmpty (s t : State) : Prop where
  books : BooksEmpty s → BooksEmpty t
  phase : t.phase = s.phase

theorem KeepsEmpty.of_blocks (bus : SameLine s.bus t.bus) (peers : t.peers = s.peers := by simp)
    (credit : t.credit = s.credit := by simp) (station : t.station = s.station := by simp)
    (phase : t.phase = s.phase := by simp) : KeepsEmpty s t :=
  ⟨fun h => h.of_blocks bus peers credit station, phase⟩

theorem KeepsEmpty.refl (s : State) : KeepsEmpty s s := ⟨id, rfl⟩

theorem KeepsEmpty.trans {u : State} (h : KeepsEmpty s t) (h' : KeepsEmpty t u) : KeepsEmpty s u :=
  ⟨h'.books ∘ h.books, h'.phase.trans h.phase⟩

theorem keepsEmpty_foldl {α : Type} {f : State → α → State} (h : ∀ s a, KeepsEmpty s (f s a)) (l : List α) (s : State) :
    KeepsEmpty s (l.foldl f s) := by
  induction l generalizing s with
  | nil => exact .refl s
  | cons a l ih => exact (h s a).trans (ih (f s a))

theorem keepsEmpty_isolateChannel (s : State) (c : Chan) : KeepsEmpty s (s.isolateChannel c) := by
  unfold State.isolateChannel
  dsimp only
  split
  case h_1 | h_2 => exact .refl s
  all_goals exact .of_blocks (.refl _)

theorem keepsEmpty_endIsolated (s : State) (c : Chan) : KeepsEmpty s (s.endIsolated c) := by
  unfold State.endIsolated
  split
  · exact .of_blocks (sameLine_complete s c .faulted)
  · exact .refl s

theorem keepsEmpty_isolateEntry (s : State) (u : Tag) : KeepsEmpty s (s.isolateEntry u) := by
  have below (c : Chan) : KeepsEmpty s (s.endIsolatedBelow c) := by
    unfold State.endIsolatedBelow
    split
    · exact keepsEmpty_foldl keepsEmpty_endIsolated _ s
    · exact .refl s
  have retire (v : State) (o : PieceOutcome) : KeepsEmpty v (v.retire u o) := .of_blocks (.of_eq (by simp))
  unfold State.isolateEntry
  split
  · exact .refl s
  split
  case h_4 => exact .of_blocks (.refl _)
  case h_5 => exact .refl s
  all_goals exact ((below _).trans (retire _ _)).trans (keepsEmpty_endIsolated _ _)

theorem clearNotices_frame (s : State) : ∃ w, s.clearNotices = { s with windows := w } := by
  have each (l : List WindowNo) (s : State) :
      ∃ w, l.foldl (fun s w => s.setWindowAt w { s.window w with notice := none }) s = { s with windows := w } := by
    induction l generalizing s with
    | nil => exact ⟨_, rfl⟩
    | cons i l ih =>
        obtain ⟨w, h⟩ := ih (s.setWindowAt i { s.window i with notice := none })
        exact ⟨w, h⟩
  exact each allWindows s

/-- The bus interface, the peer entries and the credit unit at their reset contents hold no books. -/
theorem booksEmpty_of_cleared (bus : s.bus = .cleared) (peers : s.peers = .replicate 16 .cleared)
    (credit : s.credit = .cleared) (offline : s.station.state ≠ some .online) : BooksEmpty s where
  requestQueue := by rw [bus]; rfl
  transmit := by rw [bus]; rfl
  grants p := by rw [bus]; rfl
  asks p := by rw [bus]; rfl
  waitList p := by simp [State.peer, peers, PeerEntry.cleared]
  askList := by rw [credit]; rfl
  grantCount p := by simp [State.grantCount, credit, CreditUnit.cleared]
  offline := offline

/-- R14: the entry into ISOLATED empties the books. That the part runs then is known from the state `r` before (R1). -/
theorem EventsKeep.isolate (k : EventsKeep P) {r : State} (running : SilentKept r → s.phase = .running) (hr : P r) :
    P s.isolate := by
  have left : BooksEmpty (s.leaveBus.discardSlots.clearPeers.clearNotices.stopStationTimers.enterStation .isolated) := by
    obtain ⟨w, h⟩ := clearNotices_frame s.leaveBus.discardSlots.clearPeers
    rw [h]
    exact booksEmpty_of_cleared rfl rfl rfl nofun
  have phase : (s.leaveBus.discardSlots.clearPeers.clearNotices.stopStationTimers.enterStation .isolated).phase
      = s.phase := by
    obtain ⟨w, h⟩ := clearNotices_frame s.leaveBus.discardSlots.clearPeers
    rw [h]
    rfl
  unfold State.isolate
  dsimp only
  generalize s.leaveBus.discardSlots.clearPeers.clearNotices.stopStationTimers.enterStation .isolated = v at left phase
  have notReady : KeepsEmpty v { v with readyList := [] } := .of_blocks (.refl _)
  have all := ((notReady.trans (keepsEmpty_foldl keepsEmpty_isolateChannel allChans _)).trans
    (keepsEmpty_foldl keepsEmpty_isolateEntry allTags _)).trans (keepsEmpty_foldl keepsEmpty_endIsolated allChans _)
  refine k.settle (k.empty (all.books left) (fun silent h => ?_) hr)
  rw [all.phase, phase] at h
  exact absurd (running silent) h

/-! ## The shapes that meanings have -/

/-- A command taken by a write of CMD: what its decision keeps, it keeps. -/
theorem OwnStepsKeep.takeCommand (k : OwnStepsKeep P) {code operand : Byte} {decision : State → State × ResultCode}
    (h : ∀ u : State, u.phase = .running → P u → P (decision u).1) (hs : P s) :
    P (s.takeCommand code operand decision) := by
  by_cases hr : s.phase = .running
  · rw [State.takeCommand_running hr]
    exact k.same (sameBooks_answer _ _ _) (h _ hr (k.same (sameBooks_host s _) hs))
  · rwa [State.takeCommand_silent hr]

/-- A command that one station state takes. -/
theorem inStateOnly_keeps {st : StationState} {decision : State → State × ResultCode}
    (h : s.station.state = some st → P (decision s).1) (hs : P s) : P (s.inStateOnly st decision).1 := by
  unfold State.inStateOnly
  split
  · exact h (by simpa [State.inState] using ‹s.inState st = true›)
  · exact hs

/-- A station that listens is running, if the silent phases are kept, and transmits nothing. -/
theorem running_of_listening (h : s.listening = true) (silent : SilentKept s) : s.phase = .running := by
  by_contra hp
  simp [State.listening, State.receiverOn, State.inState, (silent hp).1] at h

theorem noTransmission_of_listening (h : s.listening = true) : s.bus.transmit = none := by
  simp only [State.listening, Bool.and_eq_true, Option.isNone_iff_eq_none] at h
  exact h.2

/-- A message heard (R22): what its delivery keeps while nothing is transmitted, the command keeps. -/
theorem EventsKeep.hearFrom (k : EventsKeep P) {source : Byte} {ok : Bool} {take : Station → State → State}
    (h : ∀ (p : Station) (u : State), u.bus.transmit = none → P u → P (take p u)) (hs : P s) :
    P (s.hearFrom source ok take) := by
  have ended (r : SlotRef) : P (s.activityEnd r) := k.same (sameBooks_activityEnd s r) hs
  unfold State.hearFrom
  split
  · exact hs
  have listening : s.listening = true := by simpa using ‹¬(!s.listening) = true›
  split
  · exact ended _
  split
  · exact k.isolate (running_of_listening listening) hs
  split
  · exact ended _
  split
  · exact k.settle (h _ _ (noTransmission_of_listening listening) (ended _))
  · exact ended _

/-- The end of an access (R162): what its report keeps, it keeps. -/
theorem OwnStepsKeep.finishAccess (k : OwnStepsKeep P) {cur : CurrentAccess} {e : AccessEnd} {report : State → State}
    (h : ∀ u : State, P u → P (report u)) (hs : P s) : P (s.finishAccess cur e report) := by
  have wrote := k.same (sameBooks_applyWrite s cur.access e) hs
  have reported : P (if cur.dropped then s.applyWrite cur.access e else report (s.applyWrite cur.access e)) :=
    iteInduction (fun _ => wrote) fun _ => h _ wrote
  exact k.settle (k.same (sameBooks_port _ _) reported)

/-! ## Station states -/

/-- Entering a station state touches no book, unless it leaves ONLINE. -/
theorem sameBooks_enterStation {st : StationState} (running : SilentKept s → s.phase = .running)
    (online : s.station.state = some .online → st = .online) : SameBooks s (s.enterStation st) where
  bus := .refl _
  waitList _ := rfl
  standing _ := rfl
  askList := rfl
  grantCount _ := rfl
  silent k h := absurd (running k) h
  online _ e := congrArg some (online e)

/-- R8: the entry into JOINING from OFFLINE. -/
theorem sameBooks_enterJoining (running : s.phase = .running) (offline : s.station.state = some .offline) (inc : Byte) :
    SameBooks s (s.enterJoining inc) := by
  let u : State := { s with
    station := { s.station with incarnation := some inc, joinListen := .running s.silenceTimeout }
    marks := { s.marks with own := 0#16 } }
  have begun : SameBooks s u := .of_blocks (.refl _) rfl rfl rfl rfl rfl rfl
  obtain ⟨x, hx⟩ := clearSequences_frame u
  have joining : SameBooks u.clearSequences (u.clearSequences.enterStation .joining) :=
    sameBooks_enterStation (fun _ => by rw [hx]; exact running) fun h => by
      rw [hx] at h
      exact absurd (offline.symm.trans h) (by decide)
  have line (v : State) : SameBooks v
      { v with bus := { v.bus with slotRef := .cold, clashCount := 0, line := .idle, slotClock := 0 } } :=
    .of_blocks ⟨rfl, .inl rfl, fun _ => rfl, fun _ => rfl⟩
  have join (v : State) : SameBooks v (v.queueControl .join) := .of_blocks (sameLine_queueControl v rfl)
  exact (((begun.trans (sameBooks_clearSequences u)).trans joining).trans (line _)).trans (join _)

/-- R2: the end of the configuration read. -/
theorem sameBooks_finishConfigRead (reading : s.phase = .reading) (answers : List (Option Byte)) :
    SameBooks s (s.finishConfigRead answers) where
  bus := .refl _
  waitList _ := rfl
  standing _ := rfl
  askList := rfl
  grantCount _ := rfl
  silent _ h := absurd rfl h
  online k e := by
    have noState := (k (by rw [reading]; decide)).1
    rw [noState] at e
    cases e

theorem clearBlocks_booksEmpty (s : State) (x : Phase) (p : LocalPort) (h : HostPort) (l : Latch) :
    BooksEmpty { s.clearBlocks with phase := x, port := p, host := h, latch := l } :=
  booksEmpty_of_cleared rfl rfl rfl nofun

/-- R5: a start reset. -/
theorem EventsKeep.startReset (k : EventsKeep P) (kind : StartResetKind) (cut : List Bool) (l : Latch) (hs : P s) :
    P { s.beginStartReset kind cut with latch := l } :=
  k.empty (clearBlocks_booksEmpty (s.applyCut cut) (.inReset kind) _ _ l) (fun _ _ => ⟨rfl, rfl⟩) hs

/-- R6: a soft reset. -/
theorem EventsKeep.softReset (k : EventsKeep P) (running : s.phase = .running) (hs : P s) : P s.softResetBlocks := by
  unfold State.softResetBlocks
  dsimp only
  split
  · exact k.empty (clearBlocks_booksEmpty s .reading _ _ _) (fun _ _ => ⟨rfl, rfl⟩) hs
  · exact k.empty (booksEmpty_of_cleared rfl rfl rfl nofun) (fun _ h => absurd running h) hs

/-- R12: the end of the session. -/
theorem EventsKeep.endSession (k : EventsKeep P) {r : State} (running : SilentKept r → s.phase = .running) (hr : P r) :
    P s.endSession := by
  obtain ⟨w, h⟩ := clearNotices_frame s.clearPeers
  unfold State.endSession
  rw [h]
  exact k.empty (booksEmpty_of_cleared rfl rfl rfl nofun) (fun silent hp => absurd (running silent) hp) hr

/-! ## Host commands -/

theorem EventsKeep.start (k : EventsKeep P) (operand : Byte) (hs : P s) (h : execStart operand s = .next t) : P t := by
  cases h
  refine k.takeCommand (fun u _ hu => ?_) hs
  have fetching (c : Chan) (a : Nat) : SameBooks u (u.beginFetch c a) := .of_blocks (.of_eq (by simp))
  split
  · exact hu
  split
  · exact hu
  split
  · exact hu
  split
  · exact hu
  split
  · exact k.settle (k.same (fetching _ _) hu)
  · exact hu

theorem EventsKeep.abortChannel (k : EventsKeep P) (c : Chan) (hs : P s) : P (s.abortChannel c).1 := by
  have set (x : Channel) : P (s.setChan c x) := k.same (sameBooks_setChan s c x) hs
  have running : P (s.abortRunning c) := by
    unfold State.abortRunning
    exact k.settle (k.abortEntries c (k.same (sameBooks_retestReady _) (set _)))
  have completing : P (s.abortCompleting c).1 := by
    simp only [State.abortCompleting]
    split
    · exact set _
    · exact hs
  unfold State.abortChannel
  dsimp only
  split
  case h_3 => exact set _
  case h_6 | h_7 => dsimp only; exact running
  case h_12 =>
    exact k.settle (k.same (sameBooks_complete _ c _) (k.same (sameBooks_setChan _ c _)
      (k.same (sameBooks_setWait s c none) hs)))
  case h_13 => exact completing
  all_goals exact hs

theorem EventsKeep.join (k : EventsKeep P) (operand : Byte) (hs : P s) (h : execJoin operand s = .next t) : P t := by
  cases h
  refine k.takeCommand (fun u running hu => inStateOnly_keeps (fun offline => ?_) hu) hs
  split
  · exact k.same (sameBooks_enterJoining running offline _) hu
  · exact hu

theorem EventsKeep.leave (k : EventsKeep P) (operand : Byte) (hs : P s) (h : execLeave operand s = .next t) : P t := by
  cases h
  refine k.takeCommand (fun u running hu => inStateOnly_keeps (fun _ => ?_) hu) hs
  split
  · exact k.settle (k.enterLeaving running hu)
  · exact hu

theorem EventsKeep.clearIsolation (k : EventsKeep P) (operand : Byte) (hs : P s)
    (h : execClearIsolation operand s = .next t) : P t := by
  cases h
  refine k.takeCommand (fun u running hu => inStateOnly_keeps (fun isolated => ?_) hu) hs
  split
  · exact k.same (sameBooks_enterStation (fun _ => running) fun h => absurd (isolated.symm.trans h) (by decide)) hu
  · exact hu

theorem EventsKeep.setWindow (k : EventsKeep P) (operand : Byte) (hs : P s) (h : execSetWindow operand s = .next t) :
    P t := by
  cases h
  refine k.takeCommand (fun u _ hu => inStateOnly_keeps (fun _ => ?_) hu) hs
  have set (w : WindowNo) (x : Window) : SameBooks u (u.setWindowAt w x) := .of_blocks (.refl _)
  split
  · split
    · exact k.same (set _ _) hu
    · exact hu
  · exact hu

theorem EventsKeep.setRing (k : EventsKeep P) (operand : Byte) (hs : P s) (h : execSetRing operand s = .next t) : P t := by
  cases h
  refine k.takeCommand (fun u _ hu => inStateOnly_keeps (fun _ => ?_) hu) hs
  split
  · exact k.same (sameBooks_ring u _) hu
  · exact hu

theorem EventsKeep.abort (k : EventsKeep P) (operand : Byte) (hs : P s) (h : execAbort operand s = .next t) : P t := by
  cases h
  refine k.takeCommand (fun u _ hu => ?_) hs
  split
  · exact hu
  · exact k.abortChannel _ hu

theorem EventsKeep.clear (k : EventsKeep P) (operand : Byte) (hs : P s) (h : execClear operand s = .next t) : P t := by
  cases h
  refine k.takeCommand (fun u _ hu => ?_) hs
  split
  · exact hu
  split
  · exact k.same (sameBooks_setChan u _ _) hu
  · exact hu

theorem EventsKeep.advanceMark (k : EventsKeep P) (operand : Byte) (hs : P s)
    (h : execAdvanceMark operand s = .next t) : P t := by
  cases h
  exact k.takeCommand (fun u _ hu => inStateOnly_keeps (fun _ => k.settle (k.same (sameBooks_advanceMark u) hu)) hu) hs

theorem sameBooks_setViews (s : State) (v : Vector Word 8) : SameBooks s (s.setViews v) := .of_blocks (.refl _)

theorem EventsKeep.readChannel (k : EventsKeep P) (operand : Byte) (hs : P s)
    (h : execReadChannel operand s = .next t) : P t := by
  cases h
  refine k.takeCommand (fun u _ hu => ?_) hs
  split
  · exact hu
  split
  · exact hu
  · exact k.same (sameBooks_setViews u _) hu

theorem EventsKeep.readPeer (k : EventsKeep P) (operand : Byte) (hs : P s) (h : execReadPeer operand s = .next t) :
    P t := by
  cases h
  refine k.takeCommand (fun u _ hu => ?_) hs
  split
  · exact hu
  · exact k.same (sameBooks_setViews u _) hu

theorem EventsKeep.readWindow (k : EventsKeep P) (operand : Byte) (hs : P s) (h : execReadWindow operand s = .next t) :
    P t := by
  cases h
  refine k.takeCommand (fun u _ hu => ?_) hs
  split
  · exact hu
  · exact k.same (sameBooks_setViews u _) hu

theorem EventsKeep.readWatch (k : EventsKeep P) (operand : Byte) (hs : P s) (h : execReadWatch operand s = .next t) :
    P t := by
  cases h
  refine k.takeCommand (fun u _ hu => ?_) hs
  have idle (v : State) (w : WindowNo) (x : Window) : SameBooks v (v.setWindowAt w x) := .of_blocks (.refl _)
  split
  · exact hu
  · exact k.same (idle _ _ _) (k.same (sameBooks_setViews u _) hu)

theorem EventsKeep.readPeerChanges (k : EventsKeep P) (operand : Byte) (hs : P s)
    (h : execReadPeerChanges operand s = .next t) : P t := by
  cases h
  refine k.takeCommand (fun u _ hu => ?_) hs
  have emptied (v : State) : SameBooks v { v with changes := 0#16 } := .of_blocks (.refl _)
  exact k.same (emptied _) (k.same (sameBooks_setViews u _) hu)

theorem EventsKeep.unknownCommand (k : EventsKeep P) (code operand : Byte) (hs : P s)
    (h : execUnknownCommand code operand s = .next t) : P t := by
  cases h
  split
  · exact hs
  · exact k.takeCommand (fun _ _ hu => hu) hs

/-! ## Other host writes -/

theorem EventsKeep.consumerWrite (k : EventsKeep P) (v : Word) (hs : P s) (h : execConsumerWrite v s = .next t) :
    P t := by
  cases h
  split
  · split
    · exact k.settle (k.same (sameBooks_testRecordWrite _) (k.same (sameBooks_ring s _) hs))
    · exact k.same (sameBooks_host s _) hs
  · exact hs

theorem EventsKeep.attnWrite (k : EventsKeep P) (w : Word) (hs : P s) (h : execAttnWrite w s = .next t) : P t := by
  cases h
  split
  · exact k.same (sameBooks_host s _) hs
  · exact hs

theorem EventsKeep.attnenWrite (k : EventsKeep P) (w : Word) (hs : P s) (h : execAttnenWrite w s = .next t) : P t := by
  cases h
  split
  · exact k.same (sameBooks_host s _) hs
  · exact hs

theorem EventsKeep.registerWrite (k : EventsKeep P) (addr : BitVec 7) (w : Word) (hs : P s)
    (h : execRegisterWrite addr w s = .next t) : P t := by
  cases h
  split
  · split
    · exact k.same (sameBooks_host s _) hs
    · exact hs
  · exact hs

/-! ## The line -/

theorem EventsKeep.lineEvent (k : EventsKeep P) {c : Prop} [Decidable c] (r : SlotRef) (hs : P s) :
    P (if c then s.activityEnd r else s) :=
  iteInduction (fun _ => k.same (sameBooks_activityEnd s r) hs) fun _ => hs

theorem EventsKeep.activityBegin (k : EventsKeep P) (hs : P s) (h : execActivityBegin s = .next t) : P t := by
  cases h
  have begun : SameBooks s { s with bus := { s.bus with line := .activity, slotClock := 0 } } :=
    .of_blocks ⟨rfl, .inl rfl, fun _ => rfl, fun _ => rfl⟩
  split
  · exact k.same begun hs
  · exact hs

theorem EventsKeep.ownNumberHeard (k : EventsKeep P) (hs : P s) (h : execOwnNumberHeard s = .next t) : P t := by
  cases h
  split
  · split
    · exact k.same (sameBooks_activityEnd s _) hs
    · exact k.isolate (running_of_listening ‹_›) hs
  · exact hs

/-- A WRITE or READ delivered (R65, R71, R72). -/
theorem EventsKeep.takeRequest (k : EventsKeep P) (r : Request) (hs : P s) : P (s.takeRequest r) := by
  have arrived (u : State) (x : InboundServer) : SameBooks u { u with inbound := x } := .of_blocks (.refl _)
  unfold State.takeRequest
  split
  · split
    · unfold State.takeSlot
      exact k.same (sameBooks_checkArrival _ _ _) (k.same (sameBooks_modPeer _ _ _) (k.same (arrived _ _)
        (k.same (sameBooks_setSlot _ _ _) (k.spendGrant _ hs))))
    · exact hs
  · exact k.same (sameBooks_refuse s r) hs

/-- A reply delivered (R23, R137). -/
theorem EventsKeep.deliverReply (k : EventsKeep P) (p : Station) (inc : Byte) (kind : ReqKind)
    (tag seq echo status : Byte) (payload : List Byte) (quiet : s.bus.transmit = none) (hs : P s) :
    P (s.deliverReply p inc kind tag seq echo status payload) := by
  unfold State.deliverReply
  split
  · exact k.presenceUpdate p inc none false hs
  · exact k.takeReply _ (presenceUpdate_noTransmission quiet p inc none false) (k.presenceUpdate p inc none false hs)

/-! ## Transmission -/

theorem EventsKeep.busSlotStart (k : EventsKeep P) (n : Nat) (hs : P s) (h : execBusSlotStart n s = .next t) : P t := by
  cases h
  split
  · exact hs
  split
  · have may : s.mayTransmit = true := by simp_all
    exact k.send _ may (k.same (sameBooks_countTo s _) hs)
  · exact hs

theorem EventsKeep.coldGuardExpiry (k : EventsKeep P) (n : Nat) (hs : P s) (h : execColdGuardExpiry n s = .next t) :
    P t := by
  cases h
  split
  · exact hs
  split
  · have may : s.mayTransmit = true := by simp_all
    exact k.send _ may (k.same (sameBooks_countTo s _) hs)
  · exact hs

/-- Who transmits is running, if the silent phases are kept. -/
theorem running_of_transmitting {x : Transmission} (h : s.bus.transmit = some x) (silent : SilentKept s) :
    s.phase = .running := by
  by_contra hp
  rw [(silent hp).2] at h
  cases h

/-- The bus interface after a transmission, whatever its line and slot reference. -/
theorem sameBooks_transmissionOver (s : State) (r : SlotRef) (l : Line) (n m : Nat) :
    SameBooks s { s with bus := { s.bus with
      transmit := none, clashCount := n, slotRef := r, line := l, slotClock := m } } :=
  .of_blocks ⟨rfl, .inr rfl, fun _ => rfl, fun _ => rfl⟩

theorem EventsKeep.transmissionEnd (k : EventsKeep P) (hs : P s) (h : execTransmissionEnd s = .next t) : P t := by
  cases h
  split
  · exact hs
  rename_i x hx
  have running : SilentKept s → s.phase = .running := running_of_transmitting hx
  refine k.settle ?_
  have ended := sameBooks_transmissionOver s (.warm s.ownStation) .idle 0 0
  have endedKept := k.same ended hs
  unfold State.endTransmission
  split
  · exact endedKept
  have kept : x.withdrawn = false := by simpa using ‹¬x.withdrawn = true›
  unfold State.reportSent
  split
  · split
    · have freed (u : State) (a : InboundServer) : SameBooks u { u with inbound := a } := .of_blocks (.refl _)
      exact k.same ((sameBooks_setSlot _ _ none).trans (freed _ _)) endedKept
    · exact k.same (sameBooks_refusals _ _) endedKept
  · exact k.endSession running hs
  case h_7 hitem => exact k.requestSent _ hx hitem kept ended rfl hs
  all_goals exact endedKept

theorem EventsKeep.transmissionClash (k : EventsKeep P) (hs : P s) (h : execTransmissionClash s = .next t) : P t := by
  cases h
  split
  · exact hs
  rename_i x hx
  have running : SilentKept s → s.phase = .running := running_of_transmitting hx
  refine k.settle ?_
  have ended (n : Nat) := sameBooks_transmissionOver s .cold .abandoned n 0
  simp only [State.clash]
  split
  · exact k.isolate running hs
  split
  · exact k.same (ended _) hs
  · exact k.returnToQueue hx (by simpa using ‹¬x.withdrawn = true›) (ended _) rfl rfl hs

/-! ## Timers -/

theorem EventsKeep.joinListenTimerExpiry (k : EventsKeep P) (hs : P s) (h : execJoinListenTimerExpiry s = .next t) :
    P t := by
  cases h
  split
  · have expires : s.inState .joining = true ∧ s.station.joinListen.isRunning = true := by simp_all
    have joining : s.station.state = some .joining := by simpa [State.inState] using expires.1
    have running (silent : SilentKept s) : s.phase = .running := by
      by_contra hp
      rw [(silent hp).1] at joining
      cases joining
    have timers (u : State) (j p : Timer) :
        SameBooks u { u with station := { u.station with joinListen := j, presence := p } } :=
      .of_blocks (.refl _) rfl rfl rfl rfl rfl rfl
    exact k.settle (k.same (timers _ _ _) (k.same (sameBooks_enterStation (st := .online) running fun _ => rfl) hs))
  · exact hs

theorem EventsKeep.presenceTimerExpiry (k : EventsKeep P) (hs : P s) (h : execPresenceTimerExpiry s = .next t) : P t := by
  cases h
  have timer (u : State) (p : Timer) : SameBooks u { u with station := { u.station with presence := p } } :=
    .of_blocks (.refl _) rfl rfl rfl rfl rfl rfl
  split
  · have queued := k.same (timer _ (.running s.presenceInterval)) (k.same (sameBooks_queuePresence s) hs)
    simpa using queued
  · exact hs

theorem EventsKeep.silenceTimerExpiry (k : EventsKeep P) (p : Station) (hs : P s)
    (h : execSilenceTimerExpiry p s = .next t) : P t := by
  cases h
  split
  · exact k.settle (k.silenceUpdate p hs)
  · exact hs

theorem EventsKeep.askTimerExpiry (k : EventsKeep P) (p : Station) (hs : P s) (h : execAskTimerExpiry p s = .next t) :
    P t := by
  cases h
  split
  · split
    · exact k.settle (k.ask p hs)
    · exact k.settle (k.same (sameBooks_modPeer s p _) hs)
  · exact hs

theorem EventsKeep.replyTimerExpiry (k : EventsKeep P) (u : Tag) (hs : P s) (h : execReplyTimerExpiry u s = .next t) :
    P t := by
  cases h
  split
  · exact hs
  rename_i e he
  split
  · have sent : e.state = .sent := by simp_all
    exact k.settle (k.expireReply he sent hs)
  · exact hs

theorem EventsKeep.waitTimerExpiry (k : EventsKeep P) (c : Chan) (hs : P s) (h : execWaitTimerExpiry c s = .next t) :
    P t := by
  cases h
  split
  · exact k.settle (k.same (sameBooks_failChannel _ _ _ _) (k.same (sameBooks_setWait s c none) hs))
  · exact hs

/-! ## Ends of local accesses -/

theorem EventsKeep.descriptorFetchEnd (k : EventsKeep P) (o : AccessEnd) (hs : P s)
    (h : execDescriptorFetchEnd o s = .next t) : P t := by
  cases h
  split
  · exact hs
  split
  · exact k.finishAccess (fun u hu => k.same (sameBooks_endFetch u _ _) hu) hs
  all_goals exact hs

theorem EventsKeep.loadEnd (k : EventsKeep P) (o : AccessEnd) (hs : P s) (h : execLoadEnd o s = .next t) : P t := by
  cases h
  split
  · exact hs
  split
  · refine k.finishAccess (fun u hu => ?_) hs
    split
    · split
      · exact k.endLoad o ‹_› ‹_› hu
      · exact hu
    · exact hu
  all_goals exact hs

theorem EventsKeep.storeEnd (k : EventsKeep P) (o : AccessEnd) (hs : P s) (h : execStoreEnd o s = .next t) : P t := by
  cases h
  split
  · exact hs
  split
  · refine k.finishAccess (fun u hu => ?_) hs
    split
    · split
      · exact k.endStore _ ‹_› ‹_› hu
      · exact hu
    · exact hu
  all_goals exact hs

theorem EventsKeep.inboundAccessEnd (k : EventsKeep P) (o : AccessEnd) (hs : P s)
    (h : execInboundAccessEnd o s = .next t) : P t := by
  cases h
  split
  · exact hs
  split
  case h_1 | h_2 => exact k.finishAccess (fun u hu => k.same (sameBooks_endSlotAccess u _ _ _) hu) hs
  all_goals exact hs

theorem EventsKeep.recordWriteEnd (k : EventsKeep P) (o : AccessEnd) (hs : P s) (h : execRecordWriteEnd o s = .next t) :
    P t := by
  cases h
  split
  · exact hs
  split
  · exact k.finishAccess (fun u hu => k.same (sameBooks_endRecord u _ _) hu) hs
  all_goals exact hs

/-! ## Resets and start -/

theorem sameBooks_phase (s : State) {x : Phase} (l : Latch) (h : s.phase ≠ .running) :
    SameBooks s { s with phase := x, latch := l } where
  bus := .refl _
  waitList _ := rfl
  standing _ := rfl
  askList := rfl
  grantCount _ := rfl
  silent k _ := k h
  online _ := id

theorem EventsKeep.resetEnd (k : EventsKeep P) (hs : P s) (h : execResetEnd s = .next t) : P t := by
  cases h
  split
  · rename_i kind inReset
    exact k.same (sameBooks_phase s _ (by rw [inReset]; nofun)) hs
  · exact hs
  · exact hs

theorem EventsKeep.configurationReadEnd (k : EventsKeep P) (answers : List (Option Byte)) (hs : P s)
    (h : execConfigurationReadEnd answers s = .next t) : P t := by
  cases h
  split
  · exact k.same (sameBooks_finishConfigRead ‹_› answers) hs
  · exact hs

/-! ## Every command -/

/-- What the operations on the books keep, every command keeps. -/
theorem EventsKeep.exec (k : EventsKeep P) (c : Instr) (hs : P s) (h : Machine.exec c s = .next t) : P t := by
  cases c with
  | powerOn cut => cases h; exact k.startReset _ cut _ hs
  | resetPinAssert cut => cases h; exact k.startReset _ cut _ hs
  | resetEnd => exact k.resetEnd hs h
  | configurationReadEnd answers => exact k.configurationReadEnd answers hs h
  | join op => exact k.join op hs h
  | leave op => exact k.leave op hs h
  | clearIsolation op => exact k.clearIsolation op hs h
  | softReset op => cases h; exact k.takeCommand (fun _ running hu => k.softReset running hu) hs
  | setWindow op => exact k.setWindow op hs h
  | setRing op => exact k.setRing op hs h
  | start op => exact k.start op hs h
  | abort op => exact k.abort op hs h
  | clear op => exact k.clear op hs h
  | advanceMark op => exact k.advanceMark op hs h
  | readChannel op => exact k.readChannel op hs h
  | readPeer op => exact k.readPeer op hs h
  | readWindow op => exact k.readWindow op hs h
  | readWatch op => exact k.readWatch op hs h
  | readPeerChanges op => exact k.readPeerChanges op hs h
  | unknownCommand code op => exact k.unknownCommand code op hs h
  | consumerWrite v => exact k.consumerWrite v hs h
  | attnWrite v => exact k.attnWrite v hs h
  | attnenWrite v => exact k.attnenWrite v hs h
  | registerWrite a v => exact k.registerWrite a v hs h
  | activityBegin => exact k.activityBegin hs h
  | badCheckActivity => cases h; exact k.lineEvent .cold hs
  | malformedMessage source => cases h; exact k.hearFrom (fun _ _ _ hu => hu) hs
  | joinHeard source inc mark =>
      cases h
      exact k.hearFrom (fun p u _ hu => k.same (sameBooks_queuePresence _) (k.presenceUpdate p inc _ true hu)) hs
  | presenceHeard source inc mark => cases h; exact k.hearFrom (fun p u _ hu => k.presenceUpdate p inc _ false hu) hs
  | leaveHeard source inc mark => cases h; exact k.hearFrom (fun p u _ hu => k.leaveUpdate p inc mark hu) hs
  | askHeard source inc wanted =>
      cases h
      exact k.hearFrom (fun p u quiet hu => k.takeAsk p _ (presenceUpdate_noTransmission quiet p inc none false)
        (k.presenceUpdate p inc none false hu)) hs
  | grantHeard source inc credits echo =>
      cases h
      exact k.hearFrom (fun p u _ hu => k.takeGrant p _ echo (k.presenceUpdate p inc none false hu)) hs
  | writeHeard source inc tag seq low window offset payload =>
      cases h
      exact k.hearFrom (fun p u _ hu => k.takeRequest _ (k.presenceUpdate p inc none false hu)) hs
  | readHeard source inc tag seq low window offset length =>
      cases h
      exact k.hearFrom (fun p u _ hu => k.takeRequest _ (k.presenceUpdate p inc none false hu)) hs
  | ackHeard source inc tag seq echo status =>
      cases h
      exact k.hearFrom (fun p u quiet hu => k.deliverReply p inc .write tag seq echo status [] quiet hu) hs
  | dataHeard source inc tag seq echo status payload =>
      cases h
      exact k.hearFrom (fun p u quiet hu => k.deliverReply p inc .read tag seq echo status payload quiet hu) hs
  | granting => cases h; exact k.ownRow (fun _ h => k.granting h hs) hs
  | busSlotStart n => exact k.busSlotStart n hs h
  | coldGuardExpiry n => exact k.coldGuardExpiry n hs h
  | transmissionEnd => exact k.transmissionEnd hs h
  | transmissionClash => exact k.transmissionClash hs h
  | leaveQueued => cases h; exact k.ownRow (fun _ h => k.same (sameBooks_leaveQueued h) hs) hs
  | joinListenTimerExpiry => exact k.joinListenTimerExpiry hs h
  | presenceTimerExpiry => exact k.presenceTimerExpiry hs h
  | silenceTimerExpiry p => exact k.silenceTimerExpiry p hs h
  | askTimerExpiry p => exact k.askTimerExpiry p hs h
  | replyTimerExpiry u => exact k.replyTimerExpiry u hs h
  | waitTimerExpiry c => exact k.waitTimerExpiry c hs h
  | asking p => cases h; exact k.ownRow (fun _ h => k.asking h hs) hs
  | creditHanding p => cases h; exact k.ownRow (fun _ h => k.creditHanding h hs) hs
  | entryAllocation => cases h; exact k.ownRow (fun _ h => k.entryAllocation h hs) hs
  | descriptorEnd c => cases h; exact k.ownRow (fun _ h => k.same (sameBooks_descriptorEnd h) hs) hs
  | accessGrant => cases h; exact k.ownRow (fun _ h => k.same (sameBooks_accessGrant h) hs) hs
  | descriptorFetchEnd o => exact k.descriptorFetchEnd o hs h
  | loadEnd o => exact k.loadEnd o hs h
  | storeEnd o => exact k.storeEnd o hs h
  | inboundAccessEnd o => exact k.inboundAccessEnd o hs h
  | recordWriteIssue => cases h; exact k.ownRow (fun _ h => k.same (sameBooks_recordWriteIssue h) hs) hs
  | recordWriteEnd o => exact k.recordWriteEnd o hs h
  | ownNumberHeard => exact k.ownNumberHeard hs h
  | sourceNOrHigherHeard source => cases h; exact k.lineEvent .cold hs
  | overheardMessage dest source kind inc =>
      cases h
      exact iteInduction (fun _ => hs) fun _ => k.hearFrom (fun p u _ hu => k.presenceUpdate p inc none false hu) hs

theorem sameBooks_pending (s : State) (l : List Instr) : SameBooks s { s with pending := l } := .of_blocks (.refl _)

/-- What the operations on the books keep, every step keeps. -/
theorem EventsKeep.step (k : EventsKeep P) (hs : P s) (h : Machine.step s = .next t) : P t := by
  unfold Machine.step at h
  split at h
  · cases h; exact hs
  · exact k.exec _ (k.same (sameBooks_pending s _) hs) h

end Sys2Proof.PeerBus
end

section
/-! SUPPORT. The queue books (R32, R33, R53) under the operations that touch them. -/
namespace Sys2Proof.PeerBus

open Sys2Proof Sys2Proof.Machine Sys2Proof.Safety

-- Each thread of the elaborator reserves 1 GB under the memory limit of the check.
set_option Elab.async false

variable {s t : State} {u : Tag} {e : Entry}

theorem mem_allTags (v : Tag) : v ∈ allTags := by revert v; decide

/-! ## The queue books in terms of standings -/

/-- The queue books, read off the standings of the entries. -/
theorem queueBooks_iff : QueueBooks s ↔
    (∀ p, ∀ v ∈ (s.peer p).waitList, ∃ x, standing s v = some x ∧ x.peer = p ∧ x.state = .waitingCredit) ∧
    (∀ p, (s.peer p).waitList.Nodup) ∧
    (∀ v ∈ s.bus.requestQueue, ∃ x, standing s v = some x ∧ x.state = .queued ∧ x.inTransmission = false) ∧
    s.bus.requestQueue.Nodup ∧
    ∀ x v, s.bus.transmit = some x → x.item = .request v → x.withdrawn = false →
      ∃ y, standing s v = some y ∧ y.state = .queued ∧ y.inTransmission = true := by
  have waiting (v : Tag) (p : Station) : (s.entry v).map (fun e => (e.peer, e.state)) = some (p, .waitingCredit) ↔
      ∃ x, standing s v = some x ∧ x.peer = p ∧ x.state = .waitingCredit := by
    cases h : s.entry v <;> simp [standing, standingOf, h]
  have queued (v : Tag) (b : Bool) : (s.entry v).map (fun e => (e.state, e.inTransmission)) = some (.queued, b) ↔
      ∃ x, standing s v = some x ∧ x.state = .queued ∧ x.inTransmission = b := by
    cases h : s.entry v <;> simp [standing, standingOf, h]
  constructor
  · rintro ⟨h1, h2, h3, h4, h5⟩
    exact ⟨fun p v hv => (waiting v p).1 (h1 p v hv), h2, fun v hv => (queued v false).1 (h3 v hv), h4,
      fun x v hx hi hw => (queued v true).1 (h5 x v hx hi hw)⟩
  · rintro ⟨h1, h2, h3, h4, h5⟩
    exact ⟨fun p v hv => (waiting v p).2 (h1 p v hv), h2, fun v hv => (queued v false).2 (h3 v hv), h4,
      fun x v hx hi hw => (queued v true).2 (h5 x v hx hi hw)⟩

/-- Tag `u` stands in no credit wait list and not in the request queue, and no transmission of its request is reported. -/
structure Unlisted (s : State) (u : Tag) : Prop where
  waiting : ∀ p, u ∉ (s.peer p).waitList
  queued : u ∉ s.bus.requestQueue
  sending : ∀ x, s.bus.transmit = some x → x.item = .request u → x.withdrawn = true

/-- From `s` to `t` tags may leave the lists, and a transmission may have ended or been withdrawn; nothing joins. -/
structure FewerListed (s t : State) : Prop where
  waiting : ∀ p, ((t.peer p).waitList).Sublist (s.peer p).waitList
  queued : t.bus.requestQueue.Sublist s.bus.requestQueue
  sending : ∀ x, t.bus.transmit = some x →
    ∃ y, s.bus.transmit = some y ∧ y.item = x.item ∧ (y.withdrawn = true → x.withdrawn = true)

theorem SameBooks.fewerListed (h : SameBooks s t) : FewerListed s t where
  waiting p := by rw [h.waitList]
  queued := by rw [h.bus.requestQueue]
  sending x hx := by
    rcases h.bus.transmit with e | e
    · exact ⟨x, e ▸ hx, rfl, id⟩
    · rw [e] at hx; cases hx

theorem FewerListed.of_eq (peers : t.peers = s.peers) (queue : t.bus.requestQueue = s.bus.requestQueue)
    (transmit : t.bus.transmit = s.bus.transmit) : FewerListed s t where
  waiting p := by rw [State.peer, peers]; exact List.Sublist.refl _
  queued := by rw [queue]
  sending x hx := ⟨x, transmit ▸ hx, rfl, id⟩

theorem Unlisted.fewer (h : Unlisted s u) (f : FewerListed s t) : Unlisted t u where
  waiting p hu := h.waiting p ((f.waiting p).subset hu)
  queued hu := h.queued (f.queued.subset hu)
  sending x hx hi := by
    obtain ⟨y, hy, hitem, hw⟩ := f.sending x hx
    exact hw (h.sending y hy (hitem.trans hi))

/-- Where nothing joins a list, and only entries change that stand in none, the queue books are kept. -/
theorem queueBooks_of_fewer (h : QueueBooks s) (f : FewerListed s t)
    (same : ∀ v, standing t v = standing s v ∨ Unlisted t v) : QueueBooks t := by
  obtain ⟨waiting, waitingOnce, queued, queuedOnce, sending⟩ := queueBooks_iff.1 h
  refine queueBooks_iff.2 ⟨fun p v hv => ?_, fun p => (waitingOnce p).sublist (f.waiting p), fun v hv => ?_,
    queuedOnce.sublist f.queued, fun x v hx hi hw => ?_⟩
  · rcases same v with hs | hu
    · rw [hs]; exact waiting p v ((f.waiting p).subset hv)
    · exact absurd hv (hu.waiting p)
  · rcases same v with hs | hu
    · rw [hs]; exact queued v (f.queued.subset hv)
    · exact absurd hv hu.queued
  · rcases same v with hs | hu
    · obtain ⟨y, hy, hitem, hwy⟩ := f.sending x hx
      rw [hs]
      exact sending y v hy (hitem.trans hi) (by by_contra hne; simp [hwy (by simpa using hne)] at hw)
    · rw [hu.sending x hx hi] at hw; cases hw

/-- An entry in another state than WAITING-CREDIT and QUEUED, or FREE, stands in no list. -/
theorem unlisted_of_standing (h : QueueBooks s) (hw : ∀ x, standing s u = some x → x.state ≠ .waitingCredit)
    (hq : ∀ x, standing s u = some x → x.state ≠ .queued) : Unlisted s u := by
  obtain ⟨waiting, -, queued, -, sending⟩ := queueBooks_iff.1 h
  refine ⟨fun p hu => ?_, fun hu => ?_, fun x hx hi => ?_⟩
  · obtain ⟨x, hx, -, hs⟩ := waiting p u hu
    exact hw x hx hs
  · obtain ⟨x, hx, hs, -⟩ := queued u hu
    exact hq x hx hs
  · by_contra hne
    obtain ⟨y, hy, hs, -⟩ := sending x u hx hi (by simpa using hne)
    exact hq y hy hs

theorem standing_of_entry (he : s.entry u = some e) : standing s u = some (standingOf e) := by
  rw [standing, he]; rfl

theorem unlisted_of_state (h : QueueBooks s) (he : s.entry u = some e) (hw : e.state ≠ .waitingCredit)
    (hq : e.state ≠ .queued) : Unlisted s u := by
  refine unlisted_of_standing h (fun x hx => ?_) fun x hx => ?_ <;>
    (rw [standing_of_entry he] at hx; cases hx; assumption)

theorem unlisted_of_free (h : QueueBooks s) (he : s.entry u = none) : Unlisted s u := by
  refine unlisted_of_standing h (fun x hx => ?_) fun x hx => ?_ <;> (rw [standing, he] at hx; cases hx)

/-! ## Entries that stand in no list -/

theorem standing_setEntry_of_ne {v : Tag} (h : v ≠ u) (x : Option Entry) : standing (s.setEntry u x) v = standing s v := by
  rw [standing, State.entry_setEntry_of_ne s (Ne.symm h), standing]

theorem standing_retire_of_ne {v : Tag} (h : v ≠ u) (o : PieceOutcome) : standing (s.retire u o) v = standing s v := by
  unfold State.retire
  split
  · rfl
  · exact standing_setEntry_of_ne h none

theorem queueBooks_setEntry (h : QueueBooks s) (hu : Unlisted s u) (x : Option Entry) :
    QueueBooks (s.setEntry u x) ∧ Unlisted (s.setEntry u x) u := by
  have f : FewerListed s (s.setEntry u x) := .of_eq rfl rfl rfl
  refine ⟨queueBooks_of_fewer h f fun v => ?_, hu.fewer f⟩
  by_cases hv : v = u
  · subst hv; exact .inr (hu.fewer f)
  · exact .inl (standing_setEntry_of_ne hv x)

theorem queueBooks_retire (h : QueueBooks s) (hu : Unlisted s u) (o : PieceOutcome) : QueueBooks (s.retire u o) := by
  have f : FewerListed s (s.retire u o) := .of_eq (by simp) (by simp) (by simp)
  refine queueBooks_of_fewer h f fun v => ?_
  by_cases hv : v = u
  · subst hv; exact .inr (hu.fewer f)
  · exact .inl (standing_retire_of_ne hv o)

/-! ## Joining a list -/

/-- An entry that stands in no list and waits for a credit joins its peer's credit wait list (R53). -/
theorem queueBooks_listWaiting (h : QueueBooks s) (hu : Unlisted s u) {x : Standing} (hx : standing s u = some x)
    (hw : x.state = .waitingCredit) :
    QueueBooks (s.modPeer x.peer fun q => { q with waitList := q.waitList ++ [u] }) := by
  obtain ⟨waiting, waitingOnce, queued, queuedOnce, sending⟩ := queueBooks_iff.1 h
  refine queueBooks_iff.2 ⟨fun p v hv => ?_, fun p => ?_, queued, queuedOnce, sending⟩
  · rw [State.peer_modPeer] at hv
    split at hv
    · rcases List.mem_append.1 hv with hv | hv
      · exact ‹x.peer = p› ▸ waiting x.peer v hv
      · cases List.mem_singleton.1 hv
        exact ⟨x, hx, ‹_›, hw⟩
    · exact waiting p v hv
  · rw [State.peer_modPeer]
    split
    · exact List.nodup_append.2 ⟨waitingOnce x.peer, List.nodup_singleton u, fun a ha b hb => by
        cases List.mem_singleton.1 hb
        rintro rfl
        exact hu.waiting _ ha⟩
    · exact waitingOnce p

/-- An entry that stands in no list and is QUEUED, its request not in transmission, joins the request queue at either end
(R32, R33). -/
theorem queueBooks_listQueued (h : QueueBooks s) (hu : Unlisted s u) {x : Standing} (hx : standing s u = some x)
    (hq : x.state = .queued) (ht : x.inTransmission = false) {l : List Tag} (hl : l.Perm (u :: s.bus.requestQueue)) :
    QueueBooks { s with bus := { s.bus with requestQueue := l } } := by
  obtain ⟨waiting, waitingOnce, queued, queuedOnce, sending⟩ := queueBooks_iff.1 h
  refine queueBooks_iff.2 ⟨waiting, waitingOnce, fun v hv => ?_, ?_, sending⟩
  · rcases List.mem_cons.1 (hl.mem_iff.1 hv) with rfl | hv
    · exact ⟨x, hx, hq, ht⟩
    · exact queued v hv
  · exact hl.nodup_iff.2 (List.nodup_cons.2 ⟨hu.queued, queuedOnce⟩)

theorem queueBooks_joinWaitList (h : QueueBooks s) (hu : Unlisted s u) (he : s.entry u = some e) {p : Station}
    (hp : e.peer = p) : QueueBooks (s.joinWaitList u p) := by
  subst hp
  let f : Entry := { e with state := .waitingCredit, replyTimer := .stopped }
  have changed : s.modEntry u (fun e => { e with state := .waitingCredit, replyTimer := .stopped })
      = s.setEntry u (some f) := by rw [State.modEntry, he]; rfl
  obtain ⟨kept, unlisted⟩ := queueBooks_setEntry h hu (some f)
  unfold State.joinWaitList
  rw [changed]
  exact queueBooks_listWaiting kept unlisted (x := standingOf f)
    (standing_of_entry (State.entry_setEntry_self s u (some f))) rfl

/-! ## Leaving a list -/

theorem fewerListed_leaveWaitList (s : State) (u : Tag) (p : Station) : FewerListed s (s.leaveWaitList u p) where
  waiting r := by
    rw [State.leaveWaitList, State.peer_modPeer]
    split
    · subst_vars; exact List.filter_sublist
    · exact List.Sublist.refl _
  queued := List.Sublist.refl _
  sending x hx := ⟨x, hx, rfl, id⟩

theorem fewerListed_withdrawRequest (s : State) (u : Tag) : FewerListed s (s.withdrawRequest u) where
  waiting _ := List.Sublist.refl _
  queued := List.filter_sublist
  sending x hx := ⟨x, hx, rfl, id⟩

theorem fewerListed_withdrawSending (s : State) (u : Tag) : FewerListed s (s.withdrawSending u) where
  waiting _ := List.Sublist.refl _
  queued := List.Sublist.refl _
  sending x hx := by
    obtain ⟨y, hy, rfl⟩ := Option.map_eq_some_iff.1 hx
    refine ⟨y, hy, ?_, fun h => ?_⟩
    · split <;> rfl
    · split
      · rfl
      · exact h

theorem withdrawIf_item (f : Control → Bool) (x : Transmission) : (x.withdrawIf f).item = x.item := by
  unfold Transmission.withdrawIf
  split
  · split
    · rfl
    · rfl
  · rfl
  · rfl

theorem withdrawIf_withdrawn (f : Control → Bool) {x : Transmission} (h : x.withdrawn = true) :
    (x.withdrawIf f).withdrawn = true := by
  unfold Transmission.withdrawIf
  split
  · split
    · rfl
    · exact h
  · exact h
  · exact h

theorem fewerListed_withdrawControl (s : State) (f : Control → Bool) : FewerListed s (s.withdrawControl f) where
  waiting _ := List.Sublist.refl _
  queued := List.Sublist.refl _
  sending x hx := by
    obtain ⟨y, hy, rfl⟩ := Option.map_eq_some_iff.1 hx
    exact ⟨y, hy, (withdrawIf_item f y).symm, withdrawIf_withdrawn f⟩

theorem FewerListed.trans {v : State} (h : FewerListed s t) (h' : FewerListed t v) : FewerListed s v where
  waiting p := (h'.waiting p).trans (h.waiting p)
  queued := h'.queued.trans h.queued
  sending x hx := by
    obtain ⟨y, hy, hi, hw⟩ := h'.sending x hx
    obtain ⟨z, hz, hi', hw'⟩ := h.sending y hy
    exact ⟨z, hz, hi'.trans hi, hw ∘ hw'⟩

/-- Where nothing joins a list and no entry changes, the queue books are kept. -/
theorem queueBooks_fewer (h : QueueBooks s) (f : FewerListed s t) (same : ∀ v, standing t v = standing s v) :
    QueueBooks t := queueBooks_of_fewer h f fun v => .inl (same v)

theorem queueBooks_same (h : QueueBooks s) (f : SameBooks s t) : QueueBooks t :=
  queueBooks_fewer h f.fewerListed f.standing

/-- An entry in WAITING-CREDIT that has left its peer's credit wait list stands in no list. -/
theorem unlisted_leaveWaitList (h : QueueBooks s) (he : s.entry u = some e) (hw : e.state = .waitingCredit) :
    Unlisted (s.leaveWaitList u e.peer) u := by
  obtain ⟨waiting, -, queued, -, sending⟩ := queueBooks_iff.1 h
  have stands := standing_of_entry he
  refine ⟨fun p hu => ?_, fun hu => ?_, fun x hx hi => ?_⟩
  · obtain ⟨x, hx, hp, -⟩ := waiting p u (((fewerListed_leaveWaitList s u e.peer).waiting p).subset hu)
    rw [stands] at hx
    cases hx
    subst hp
    simp [State.leaveWaitList, standingOf, without] at hu
  · obtain ⟨x, hx, hs, -⟩ := queued u hu
    rw [stands] at hx
    cases hx
    cases hw.symm.trans hs
  · by_contra hne
    obtain ⟨y, hy, hs, -⟩ := sending x u hx hi (by simpa using hne)
    rw [stands] at hy
    cases hy
    cases hw.symm.trans hs

/-- A QUEUED entry stands in no credit wait list. -/
theorem not_waiting_of_queued (h : QueueBooks s) (he : s.entry u = some e) (hq : e.state = .queued) (p : Station) :
    u ∉ (s.peer p).waitList := by
  intro hu
  obtain ⟨x, hx, -, hs⟩ := (queueBooks_iff.1 h).1 p u hu
  rw [standing_of_entry he] at hx
  cases hx
  cases hq.symm.trans hs

/-- A QUEUED entry whose request is withdrawn from the request queue, and is not being sent, stands in no list. -/
theorem unlisted_withdrawRequest (h : QueueBooks s) (he : s.entry u = some e) (hq : e.state = .queued)
    (ht : e.inTransmission = false ∨ s.bus.transmit = none) : Unlisted (s.withdrawRequest u) u := by
  refine ⟨fun p hu => not_waiting_of_queued h he hq p hu, by simp [State.withdrawRequest, without], fun x hx hi => ?_⟩
  rcases ht with ht | ht
  · by_contra hne
    obtain ⟨y, hy, -, hs⟩ := (queueBooks_iff.1 h).2.2.2.2 x u hx hi (by simpa using hne)
    rw [standing_of_entry he] at hy
    cases hy
    cases ht.symm.trans hs
  · cases ht.symm.trans hx

/-- A QUEUED entry whose request is being sent stands in no list once that is withdrawn. -/
theorem unlisted_withdrawSending (h : QueueBooks s) (he : s.entry u = some e) (hq : e.state = .queued)
    (ht : e.inTransmission = true) : Unlisted (s.withdrawSending u) u := by
  refine ⟨fun p hu => not_waiting_of_queued h he hq p hu, fun hu => ?_, fun x hx hi => ?_⟩
  · obtain ⟨x, hx, -, hs⟩ := (queueBooks_iff.1 h).2.2.1 u hu
    rw [standing_of_entry he] at hx
    cases hx
    cases ht.symm.trans hs
  · obtain ⟨y, hy, rfl⟩ := Option.map_eq_some_iff.1 hx
    split at hi
    · rw [if_pos ‹_›]
    · exact absurd hi ‹_›

/-! ## The part's own steps -/

theorem queueBooks_absentRetire (h : s.absentRetire u = some t) (hs : QueueBooks s) : QueueBooks t := by
  obtain ⟨e, reason, he, hw, -, rfl⟩ := State.absentRetire_spec h
  exact queueBooks_retire (queueBooks_fewer hs (fewerListed_leaveWaitList s u e.peer) fun _ => rfl)
    (unlisted_leaveWaitList hs he hw) _

/-- R54: the head of the credit wait list is QUEUED. -/
theorem queueBooks_creditHanding {p : Station} (h : s.creditHanding p = some t) (hs : QueueBooks s) : QueueBooks t := by
  obtain ⟨u, rest, e, seq, next, hw, -, he, hstate, hp, -, rfl⟩ := State.creditHanding_spec h
  subst hp
  let q : PeerEntry := { s.peer e.peer with held := (s.peer e.peer).held - 1, waitList := rest, nextSeq := next }
  have nodup := hs.waitingOnce e.peer
  rw [hw, List.nodup_cons] at nodup
  have left : FewerListed (s.leaveWaitList u e.peer) (s.setPeer e.peer q) := by
    refine ⟨fun r => ?_, List.Sublist.refl _, fun x hx => ⟨x, hx, rfl, id⟩⟩
    rw [State.peer_setPeer, State.leaveWaitList, State.peer_modPeer]
    split
    · have : without (u :: rest) u = rest := by
        simp only [without, ne_eq, decide_not, List.filter_cons, decide_true, Bool.not_true, Bool.false_eq_true, if_false]
        exact List.filter_eq_self.2 fun v hv => by
          have : v ≠ u := fun hvu => nodup.1 (hvu ▸ hv)
          simp [this]
      rw [hw, this]
    · exact List.Sublist.refl _
  have unlisted := (unlisted_leaveWaitList hs he hstate).fewer left
  have kept : QueueBooks (s.setPeer e.peer q) :=
    queueBooks_fewer hs ((fewerListed_leaveWaitList s u e.peer).trans left) fun _ => rfl
  let f : Entry := { e with state := .queued, inTransmission := false, seq := some seq }
  obtain ⟨kept, unlisted⟩ := queueBooks_setEntry kept unlisted (some f)
  exact queueBooks_listQueued kept unlisted (x := standingOf f)
    (standing_of_entry (State.entry_setEntry_self _ u (some f))) rfl rfl (List.perm_append_singleton u _)

/-- R129: a FREE entry is given out. -/
theorem queueBooks_entryAllocation (h : s.entryAllocation = some t) (hs : QueueBooks s) : QueueBooks t := by
  obtain ⟨c, rest, u, -, hfree, -, rfl⟩ := State.entryAllocation_spec h
  have free : s.entry u = none := by
    have := List.find?_some hfree
    simpa using this
  have popped : SameBooks s { s with readyList := rest } := .of_blocks (.refl _)
  obtain ⟨given, unlisted⟩ := queueBooks_setEntry (queueBooks_same hs popped)
    ((unlisted_of_free hs free).fewer popped.fewerListed) (some ((s.chan c).nextEntry c))
  have issued := sameBooks_setChan ({ s with readyList := rest }.setEntry u (some ((s.chan c).nextEntry c))) c
    (s.chan c).issueOne
  have given := queueBooks_same given issued
  simp only [State.issue]
  refine queueBooks_same ?_ (sameBooks_retestReady _)
  split
  · exact queueBooks_same given (sameBooks_queueOutbound _ _)
  · exact queueBooks_joinWaitList given (unlisted.fewer issued.fewerListed)
      (State.entry_setEntry_self _ u (some ((s.chan c).nextEntry c))) rfl

theorem queueBooks_ask (p : Station) (hs : QueueBooks s) : QueueBooks (s.ask p) := by
  have fewer : FewerListed s (s.ask p) := by
    refine ⟨fun r => ?_, List.Sublist.refl _, fun x hx => ⟨x, hx, rfl, id⟩⟩
    have : ((s.ask p).peer r).waitList = (s.peer r).waitList :=
      (sameBooks_modPeer s p fun q => { q with asked := true, askTimer := .running s.replyTimeout }).waitList r
    rw [this]
  exact queueBooks_fewer hs fewer fun _ => rfl

theorem queueBooks_granting (h : s.granting = some t) (hs : QueueBooks s) : QueueBooks t := by
  obtain ⟨a, rest, -, -, -, g, -, rfl⟩ := State.granting_spec h
  exact queueBooks_fewer hs (.of_eq rfl rfl rfl) fun _ => rfl

theorem queueBooks_ownSteps : OwnStepsKeep QueueBooks where
  same h hs := queueBooks_same hs h
  absentRetire h hs := queueBooks_absentRetire h hs
  creditHanding h hs := queueBooks_creditHanding h hs
  ask p hs := queueBooks_ask p hs
  entryAllocation h hs := queueBooks_entryAllocation h hs
  granting h hs := queueBooks_granting h hs

/-! ## Abort of a channel's entries (R142) -/

/-- If the entry with tag `v` is one of channel `c`, marked for its abort, and waits for a credit, then it stands in no
credit wait list. -/
def AbortedAside (c : Chan) (s : State) (v : Tag) : Prop :=
  ∀ x, standing s v = some x → x.chan = c → x.aborting = true → x.state = .waitingCredit → ∀ p, v ∉ (s.peer p).waitList

theorem abortedAside_of {c : Chan} {v : Tag} (h : AbortedAside c s v)
    (same : ∀ x, standing t v = some x → x.aborting = true → x.state = .waitingCredit →
      standing s v = some x ∧ ∀ p, v ∈ (t.peer p).waitList → v ∈ (s.peer p).waitList) : AbortedAside c t v := by
  intro x hx hc ha hw p hv
  obtain ⟨before, listed⟩ := same x hx ha hw
  exact h x before hc ha hw p (listed p hv)

theorem abortedAside_fewer {c : Chan} {v : Tag} (h : AbortedAside c s v) (f : FewerListed s t)
    (same : ∀ x, standing t v = some x → x.state = .waitingCredit → standing s v = some x) : AbortedAside c t v :=
  abortedAside_of h fun x hx _ hw => ⟨same x hx hw, fun p hv => (f.waiting p).subset hv⟩

theorem standing_retire_self (o : PieceOutcome) : standing (s.retire u o) u = none := by
  unfold State.retire
  split
  · rw [standing, ‹s.entry u = none›]; rfl
  · exact congrArg (Option.map standingOf) (State.entry_setEntry_self s u none)

/-- A retired entry has no standing, and every other keeps its own. -/
theorem standing_of_standing_retire {v : Tag} {o : PieceOutcome} {x : Standing}
    (h : standing (s.retire u o) v = some x) : standing s v = some x := by
  by_cases hv : v = u
  · subst hv; rw [standing_retire_self] at h; cases h
  · rwa [standing_retire_of_ne hv] at h

theorem fewerListed_retire (s : State) (u : Tag) (o : PieceOutcome) : FewerListed s (s.retire u o) :=
  .of_eq (by simp) (by simp) (by simp)

/-- The state in which a piece has been issued into entry `u`, up to the ready list: the load is queued, or the entry has
joined its peer's credit wait list. -/
theorem issue_cases (s : State) (u : Tag) (c : Chan) :
    let given := (s.setEntry u (some ((s.chan c).nextEntry c))).setChan c (s.chan c).issueOne
    s.issue u c = (given.queueOutbound (loadAccess u ((s.chan c).nextEntry c))).retestReady ∨
      s.issue u c = (given.joinWaitList u ((s.chan c).nextEntry c).peer).retestReady := by
  simp only [State.issue]
  split
  · exact .inl rfl
  · exact .inr rfl

theorem issue_standing_of_ne {c : Chan} {v : Tag} (h : v ≠ u) : standing (s.issue u c) v = standing s v := by
  rcases issue_cases s u c with hi | hi
  · rw [hi]
    exact standing_setEntry_of_ne h _
  · rw [hi]
    exact (standing_setEntry_of_ne (s := State.setChan _ _ _) h _).trans (standing_setEntry_of_ne h _)

/-- A piece is issued without an aborting mark. -/
theorem issue_not_aborting {c : Chan} (x : Standing) (h : standing (s.issue u c) u = some x) : x.aborting = false := by
  rcases issue_cases s u c with hi | hi
  · have he : (s.issue u c).entry u = some ((s.chan c).nextEntry c) := by simp [hi]
    rw [standing_of_entry he] at h
    cases h
    rfl
  · have he : (s.issue u c).entry u
        = some { (s.chan c).nextEntry c with state := .waitingCredit, replyTimer := .stopped } := by
      simp [hi, State.joinWaitList]
    rw [standing_of_entry he] at h
    cases h
    rfl

/-- A piece issued into entry `u` brings no other tag into a credit wait list. -/
theorem issue_waitList_of_ne {c : Chan} {v : Tag} {p : Station} (h : v ≠ u) (hv : v ∈ ((s.issue u c).peer p).waitList) :
    v ∈ (s.peer p).waitList := by
  rcases issue_cases s u c with hi | hi
  · rw [hi] at hv
    simpa using hv
  · rw [hi, State.joinWaitList] at hv
    simp only [State.retestReady_peer, State.peer_modPeer] at hv
    split at hv
    · subst_vars
      rcases List.mem_append.1 hv with hv | hv
      · exact hv
      · exact absurd (List.mem_singleton.1 hv) h
    · exact hv

/-- The part's own steps put no entry marked for abort into a credit wait list. -/
theorem abortedAside_ownSteps (c : Chan) : OwnStepsKeep fun s => ∀ v, AbortedAside c s v where
  same h hs v := abortedAside_fewer (hs v) h.fewerListed fun x hx _ => by rwa [h.standing] at hx
  absentRetire h hs v := by
    obtain ⟨e, reason, -, -, -, rfl⟩ := State.absentRetire_spec h
    exact abortedAside_fewer (hs v) ((fewerListed_leaveWaitList _ _ _).trans (fewerListed_retire _ _ _))
      fun x hx _ => standing_of_standing_retire (s := State.leaveWaitList _ _ _) hx
  creditHanding {s t p} h hs v := by
    obtain ⟨u, rest, e, seq, next, hw, -, he, -, -, -, rfl⟩ := State.creditHanding_spec h
    refine abortedAside_of (hs v) fun x hx _ hstate => ⟨?_, fun r hv => ?_⟩
    · by_cases hvu : v = u
      · subst hvu
        simp only [standing, State.queueRequest_entry, State.entry_setEntry_self, Option.map_some,
          Option.some.injEq] at hx
        subst hx
        cases hstate
      · exact (standing_setEntry_of_ne hvu _).symm.trans hx
    · change v ∈ ((s.setPeer p _).peer r).waitList at hv
      rw [State.peer_setPeer] at hv
      split at hv
      · subst_vars; rw [hw]; exact List.mem_cons_of_mem _ hv
      · exact hv
  ask {s} p hs v := by
    refine abortedAside_of (hs v) fun x hx _ _ => ⟨hx, fun r hv => ?_⟩
    rwa [← (sameBooks_modPeer s p fun q => { q with asked := true, askTimer := .running s.replyTimeout }).waitList r]
  entryAllocation {s t} h hs v := by
    obtain ⟨d, rest, u, -, -, -, rfl⟩ := State.entryAllocation_spec h
    refine abortedAside_of (hs v) fun x hx ha _ => ?_
    by_cases hvu : v = u
    · subst hvu
      rw [issue_not_aborting x hx] at ha
      cases ha
    · exact ⟨(issue_standing_of_ne (s := { s with readyList := rest }) hvu).symm.trans hx,
        fun p hv => issue_waitList_of_ne (s := { s with readyList := rest }) hvu hv⟩
  granting h hs v := by
    obtain ⟨a, rest, -, -, -, g, -, rfl⟩ := State.granting_spec h
    exact hs v

/-- The queue books read nothing of the aborting mark. -/
theorem queueBooks_mark (h : QueueBooks s) (he : s.entry u = some e) :
    QueueBooks (s.setEntry u (some { e with aborting := true })) := by
  have same {α : Type} (g : Entry → α) (hg : g { e with aborting := true } = g e) (v : Tag) :
      ((s.setEntry u (some { e with aborting := true })).entry v).map g = (s.entry v).map g := by
    rw [State.entry_setEntry]
    split
    · subst_vars; rw [he]; exact congrArg some hg
    · rfl
  obtain ⟨waiting, waitingOnce, queued, queuedOnce, sending⟩ := h
  exact ⟨fun p v hv => (same _ rfl v).trans (waiting p v hv), waitingOnce, fun v hv => (same _ rfl v).trans (queued v hv),
    queuedOnce, fun x v hx hi hw => (same _ rfl v).trans (sending x v hx hi hw)⟩

/-- What the marking of channel `c` for its abort does to entry `v` (R142). -/
def markEntry (c : Chan) (s : State) (v : Tag) : State :=
  match s.entry v with
  | none => s
  | some e =>
      if e.chan = c then
        let s := s.setEntry v (some { e with aborting := true })
        if e.state = .waitingCredit then s.leaveWaitList v e.peer else s
      else s

theorem markAborting_eq (s : State) (c : Chan) : s.markAborting c = allTags.foldl (markEntry c) s := rfl

/-- Marking an entry keeps the queue books, puts that entry aside and leaves the others aside that are. -/
theorem markEntry_spec (c : Chan) (h : QueueBooks s) (v : Tag) :
    QueueBooks (markEntry c s v) ∧ AbortedAside c (markEntry c s v) v ∧
      ∀ w, AbortedAside c s w → AbortedAside c (markEntry c s v) w := by
  unfold markEntry
  split
  · refine ⟨h, fun x hx => ?_, fun _ => id⟩
    rw [standing, ‹s.entry v = none›] at hx
    cases hx
  rename_i e he
  split
  swap
  · refine ⟨h, fun x hx hc => ?_, fun _ => id⟩
    rw [standing_of_entry he] at hx
    cases hx
    exact absurd hc ‹_›
  let f : Entry := { e with aborting := true }
  have marked : QueueBooks (s.setEntry v (some f)) := queueBooks_mark h he
  have hf : (s.setEntry v (some f)).entry v = some f := State.entry_setEntry_self s v (some f)
  have given : FewerListed s (s.setEntry v (some f)) := .of_eq rfl rfl rfl
  have others (t : State) (l : FewerListed s t) (ht : ∀ w ≠ v, standing t w = standing s w) (aside : AbortedAside c t v)
      (w : Tag) (hw : AbortedAside c s w) : AbortedAside c t w := by
    by_cases hwv : w = v
    · exact hwv ▸ aside
    · exact abortedAside_fewer hw l fun x hx _ => (ht w hwv) ▸ hx
  dsimp only
  split
  · have fewer := fewerListed_leaveWaitList (s.setEntry v (some f)) v e.peer
    have aside : AbortedAside c ((s.setEntry v (some f)).leaveWaitList v e.peer) v :=
      fun _ _ _ _ _ => (unlisted_leaveWaitList marked hf ‹_›).waiting
    exact ⟨queueBooks_fewer marked fewer fun _ => rfl, aside, others _ (given.trans fewer) (fun w hw => standing_setEntry_of_ne hw _) aside⟩
  · have aside : AbortedAside c (s.setEntry v (some f)) v := fun x hx _ _ hw => by
      rw [standing_of_entry hf] at hx
      cases hx
      exact absurd hw ‹_›
    exact ⟨marked, aside, others _ given (fun w hw => standing_setEntry_of_ne hw _) aside⟩

/-- Marking entries one after another keeps the queue books and puts every one of them aside. -/
theorem foldl_markEntry_spec (c : Chan) (l : List Tag) (h : QueueBooks s) :
    QueueBooks (l.foldl (markEntry c) s) ∧ ∀ v, v ∈ l ∨ AbortedAside c s v → AbortedAside c (l.foldl (markEntry c) s) v := by
  induction l generalizing s with
  | nil => exact ⟨h, fun v hv => hv.elim (fun h => absurd h List.not_mem_nil) id⟩
  | cons w l ih =>
      obtain ⟨marked, aside, others⟩ := markEntry_spec c h w
      obtain ⟨kept, all⟩ := ih marked
      refine ⟨kept, fun v hv => all v ?_⟩
      rcases hv with hv | hv
      · rcases List.mem_cons.1 hv with rfl | hv
        · exact .inr aside
        · exact .inl hv
      · exact .inr (others v hv)

/-- An entry in WAITING-CREDIT in no credit wait list stands in no list. -/
theorem unlisted_of_aside (h : QueueBooks s) (he : s.entry u = some e) (hw : e.state = .waitingCredit)
    (aside : ∀ p, u ∉ (s.peer p).waitList) : Unlisted s u := by
  refine ⟨aside, fun hu => ?_, fun x hx hi => ?_⟩
  · exact (unlisted_leaveWaitList h he hw).queued hu
  · exact (unlisted_leaveWaitList h he hw).sending x hx hi

/-- The abort of one entry that is aside keeps the queue books and what is aside. -/
theorem abortEntry_spec (c : Chan) (h : QueueBooks s) (aside : ∀ v, AbortedAside c s v) (u : Tag) :
    QueueBooks (s.abortEntry c u) ∧ ∀ v, AbortedAside c (s.abortEntry c u) v := by
  unfold State.abortEntry
  split
  · exact ⟨h, aside⟩
  rename_i e he
  split
  swap
  · exact ⟨h, aside⟩
  have marked : e.chan = c ∧ e.aborting = true := by simpa using ‹(decide (e.chan = c) && e.aborting) = true›
  split
  · have alone := unlisted_of_aside h he ‹_› (aside u _ (standing_of_entry he) marked.1 marked.2 ‹_›)
    exact ⟨queueBooks_retire h alone _, fun v =>
      abortedAside_fewer (aside v) (fewerListed_retire _ _ _) fun x hx _ => standing_of_standing_retire hx⟩
  · split
    · exact ⟨h, aside⟩
    · have returned : SameBooks (s.withdrawRequest u) ((s.withdrawRequest u).returnCredit e.peer) := sameBooks_returnCredit _ _
      have fewer := (fewerListed_withdrawRequest s u).trans returned.fewerListed
      have alone := unlisted_withdrawRequest h he ‹_› (.inl (by simpa using ‹¬e.inTransmission = true›))
      exact ⟨queueBooks_retire (queueBooks_fewer h fewer fun _ => rfl) (alone.fewer returned.fewerListed) _, fun v =>
        abortedAside_fewer (aside v) (fewer.trans (fewerListed_retire _ _ _))
          fun x hx _ => standing_of_standing_retire (s := (s.withdrawRequest u).returnCredit e.peer) hx⟩
  all_goals exact ⟨h, aside⟩

theorem queueBooks_abortEntries (c : Chan) (h : QueueBooks s) : QueueBooks (s.abortEntries c) := by
  have each (l : List Tag) : ∀ {s : State}, QueueBooks s → (∀ v, AbortedAside c s v) →
      QueueBooks (l.foldl (fun s t => (s.abortEntry c t).settle) s) := by
    induction l with
    | nil => exact fun h _ => h
    | cons u l ih =>
        intro s h aside
        obtain ⟨kept, still⟩ := abortEntry_spec c h aside u
        exact ih (queueBooks_ownSteps.settle kept) ((abortedAside_ownSteps c).settle still)
  obtain ⟨marked, aside⟩ := foldl_markEntry_spec c allTags h
  exact each allTags marked fun v => aside v (.inl (mem_allTags v))

/-! ## Retirement and replies -/

theorem queueBooks_cleanupEntry (why : FaultCode) (he : s.entry u = some e) (h : QueueBooks s) :
    QueueBooks (s.cleanupEntry why u e) := by
  unfold State.cleanupEntry
  split
  · exact queueBooks_retire (queueBooks_fewer h (fewerListed_leaveWaitList s u e.peer) fun _ => rfl)
      (unlisted_leaveWaitList h he ‹_›) _
  · split
    · exact queueBooks_retire (queueBooks_fewer h (fewerListed_withdrawSending s u) fun _ => rfl)
        (unlisted_withdrawSending h he ‹_› ‹_›) _
    · exact queueBooks_retire (queueBooks_fewer h (fewerListed_withdrawRequest s u) fun _ => rfl)
        (unlisted_withdrawRequest h he ‹_› (.inl (by simpa using ‹¬e.inTransmission = true›))) _
  · exact queueBooks_retire h (unlisted_of_state h he (by simp [‹e.state = .sent›]) (by simp [‹e.state = .sent›])) _
  · exact queueBooks_same h (sameBooks_setEntry he rfl)
  · exact h

theorem fewerListed_cleanupCredit (s : State) (p : Station) : FewerListed s (s.cleanupCredit p) := by
  have stopped := (sameBooks_modPeer s p fun q => { q with held := 0, asked := false, askTimer := .stopped }).fewerListed
  have rest (v : State) : FewerListed v { v.setGrant p 0 with credit := { (v.setGrant p 0).credit with
      askList := (v.setGrant p 0).credit.askList.filter fun a => a.peer ≠ p } } := .of_eq rfl rfl rfl
  exact (stopped.trans (fewerListed_withdrawControl _ _)).trans (rest _)

theorem queueBooks_endLoad (o : AccessEnd) (he : s.entry u = some e) (hl : e.state = .loading) (h : QueueBooks s) :
    QueueBooks (s.endLoad u e o) := by
  have alone := unlisted_of_state h he (by simp [hl]) (by simp [hl])
  unfold State.endLoad
  split
  · exact queueBooks_retire h alone _
  · exact queueBooks_retire h alone _
  · split
    · exact queueBooks_retire h alone _
    · rename_i data _ _ _
      let f : Entry := { e with buffer := data }
      obtain ⟨loaded, alone⟩ := queueBooks_setEntry h alone (some f)
      exact queueBooks_joinWaitList (e := f) loaded alone (State.entry_setEntry_self s u (some f)) rfl

theorem queueBooks_expireReply (he : s.entry u = some e) (hs : e.state = .sent) (h : QueueBooks s) :
    QueueBooks (s.expireReply u e) := by
  have alone := unlisted_of_state h he (by simp [hs]) (by simp [hs])
  unfold State.expireReply
  split
  · exact queueBooks_retire h alone _
  split
  · exact queueBooks_joinWaitList h alone he rfl
  · exact queueBooks_retire h alone _

/-- An entry that a reply finds waiting, QUEUED or SENT leaves its state and then stands in no list (R138, R139). -/
theorem leaveForReply_spec (h : QueueBooks s) (quiet : s.bus.transmit = none) (he : s.entry u = some e)
    (hstate : e.state = .waitingCredit ∨ e.state = .queued ∨ e.state = .sent) :
    QueueBooks (s.leaveForReply u e) ∧ Unlisted (s.leaveForReply u e) u ∧
      ∃ f, (s.leaveForReply u e).entry u = some f ∧ f.peer = e.peer := by
  unfold State.leaveForReply
  rcases hstate with hw | hq | hs
  · rw [hw]
    exact ⟨queueBooks_fewer h (fewerListed_leaveWaitList s u e.peer) fun _ => rfl, unlisted_leaveWaitList h he hw, e, he, rfl⟩
  · rw [hq]
    have returned := sameBooks_returnCredit (s.withdrawRequest u) e.peer
    exact ⟨queueBooks_same (queueBooks_fewer h (fewerListed_withdrawRequest s u) fun _ => rfl) returned,
      (unlisted_withdrawRequest h he hq (.inr quiet)).fewer returned.fewerListed, e, he, rfl⟩
  · rw [hs]
    have alone := unlisted_of_state h he (by simp [hs]) (by simp [hs])
    obtain ⟨kept, alone⟩ := queueBooks_setEntry h alone ((s.entry u).map fun e => { e with replyTimer := .stopped })
    exact ⟨kept, alone, { e with replyTimer := .stopped }, by simp [he], rfl⟩

theorem queueBooks_takeReply (r : ReplyHeard) (quiet : s.bus.transmit = none) (h : QueueBooks s) :
    QueueBooks (s.takeReply r) := by
  unfold State.takeReply
  split
  · exact h
  rename_i e he
  split
  swap
  · exact h
  have hstate : e.state = .waitingCredit ∨ e.state = .queued ∨ e.state = .sent := by
    have matched := ‹s.replyMatches r e = true›
    simp only [State.replyMatches, Bool.and_eq_true, Bool.or_eq_true, decide_eq_true_eq] at matched
    tauto
  obtain ⟨kept, alone, f, hf, hpeer⟩ := leaveForReply_spec h quiet he hstate
  have retired (o : PieceOutcome) := queueBooks_retire kept alone o
  simp only [State.settleReply]
  split
  · split
    · exact retired _
    · unfold State.settleRead
      split
      · exact retired _
      · exact queueBooks_same (queueBooks_setEntry kept alone _).1 (sameBooks_queueOutbound _ _)
  · exact retired _
  · exact retired _
  · exact retired _
  · have lost : SameBooks (s.leaveForReply r.tag e) ((s.leaveForReply r.tag e).modPeer e.peer fun q => { q with held := 0 }) :=
      sameBooks_modPeer _ _ _
    have kept := queueBooks_same kept lost
    have alone := alone.fewer lost.fewerListed
    simp only [State.settleNoCredit]
    split
    · exact queueBooks_retire kept alone _
    · exact queueBooks_joinWaitList kept alone hf hpeer

/-! ## Credits and the station state -/

theorem queueBooks_takeAsk (p : Station) (n : Nat) (h : QueueBooks s) : QueueBooks (s.takeAsk p n) := by
  unfold State.takeAsk
  split
  · exact queueBooks_fewer h (.of_eq rfl rfl rfl) fun _ => rfl
  split
  · split
    · exact h
    · exact queueBooks_fewer h (.of_eq rfl rfl rfl) fun _ => rfl
  · exact h

theorem queueBooks_takeGrant (p : Station) (n : Nat) (echo : Byte) (h : QueueBooks s) :
    QueueBooks (s.takeGrant p n echo) := by
  unfold State.takeGrant
  split
  · exact queueBooks_fewer (queueBooks_same h (sameBooks_modPeer s p _)) (fewerListed_withdrawControl _ _) fun _ => rfl
  · exact h

theorem queueBooks_enterLeaving (h : QueueBooks s) : QueueBooks s.enterLeaving := by
  have left : FewerListed s { s.enterStation .leaving with credit :=
      { (s.enterStation .leaving).credit with askList := [], grants := .replicate 16 0 } } := .of_eq rfl rfl rfl
  have cleared (v : State) : SameBooks v v.clearAsked := by
    unfold State.clearAsked
    refine sameBooks_foldl (fun v p => ?_) _ v
    exact sameBooks_modPeer v p _
  have withdrawn := queueBooks_fewer h (left.trans (fewerListed_withdrawControl _ Control.isCredit)) fun _ => rfl
  exact queueBooks_same withdrawn (cleared _)

theorem queueBooks_empty (h : BooksEmpty t) : QueueBooks t where
  waiting p v hv := by rw [h.waitList] at hv; cases hv
  waitingOnce p := by rw [h.waitList]; exact List.nodup_nil
  queued v hv := by rw [h.requestQueue] at hv; cases hv
  queuedOnce := by rw [h.requestQueue]; exact List.nodup_nil
  sending x v hx := by rw [h.transmit] at hx; cases hx

/-! ## Transmission -/

/-- A reply or a control message goes out (R29). -/
theorem queueBooks_transmitNow (h : QueueBooks s) {item : Outgoing} (hi : ∀ v, item ≠ .request v) (m : Message) :
    QueueBooks (s.transmitNow item m) := by
  obtain ⟨waiting, waitingOnce, queued, queuedOnce, -⟩ := h
  refine ⟨waiting, waitingOnce, queued, queuedOnce, fun x v hx hxi _ => ?_⟩
  cases hx
  exact absurd hxi (hi v)

/-- The head of the request queue goes out (R135). -/
theorem queueBooks_sendRequest (h : QueueBooks s) : QueueBooks s.sendRequest := by
  unfold State.sendRequest
  split
  · exact h
  rename_i u rest hq
  split
  · exact h
  rename_i e he
  obtain ⟨waiting, waitingOnce, queued, queuedOnce, -⟩ := queueBooks_iff.1 h
  rw [hq] at queued queuedOnce
  obtain ⟨x, hx, hstate, -⟩ := queued u List.mem_cons_self
  rw [standing_of_entry he] at hx
  cases hx
  have first : u ∉ rest := (List.nodup_cons.1 queuedOnce).1
  have other {v : Tag} (hv : v ≠ u) := standing_setEntry_of_ne (s := { s with bus := { s.bus with requestQueue := rest } })
    hv (some { e with inTransmission := true })
  refine queueBooks_iff.2 ⟨fun p v hv => ?_, waitingOnce, fun v hv => ?_, (List.nodup_cons.1 queuedOnce).2,
    fun y v hy hi _ => ?_⟩
  · have hvu : v ≠ u := fun hvu => not_waiting_of_queued h he hstate p (hvu ▸ hv)
    obtain ⟨x, hx, hx'⟩ := waiting p v hv
    exact ⟨x, (other hvu).trans hx, hx'⟩
  · have hvu : v ≠ u := fun hvu => first (hvu ▸ hv)
    obtain ⟨x, hx, hx'⟩ := queued v (List.mem_cons_of_mem u hv)
    exact ⟨x, (other hvu).trans hx, hx'⟩
  · cases hy
    cases hi
    exact ⟨standingOf { e with inTransmission := true }, standing_of_entry (State.entry_setEntry_self _ u _), hstate, rfl⟩

theorem queueBooks_send (repliesOnly : Bool) (h : QueueBooks s) : QueueBooks (s.send repliesOnly) := by
  have taken (v : State) (b : BusInterface) (hr : b.requestQueue = v.bus.requestQueue) (ht : b.transmit = v.bus.transmit)
      (h : QueueBooks v) : QueueBooks { v with bus := b } := queueBooks_fewer h (.of_eq rfl hr ht) fun _ => rfl
  unfold State.send
  split
  · refine queueBooks_transmitNow ?_ (fun v hv => by cases hv) _
    exact taken s _ rfl rfl h
  split
  · exact h
  split
  · refine queueBooks_transmitNow ?_ (fun v hv => by cases hv) _
    exact taken s _ rfl rfl h
  · exact queueBooks_sendRequest h

/-- The entry whose request is being sent stands in no list once the transmission is over. -/
theorem unlisted_of_sending (h : QueueBooks s) {x : Transmission} (hx : s.bus.transmit = some x)
    (hi : x.item = .request u) (hw : x.withdrawn = false) (same : SameBooks s t) (quiet : t.bus.transmit = none) :
    Unlisted t u ∧ ∃ y, standing t u = some y ∧ y.state = .queued := by
  obtain ⟨y, hy, hq, ht⟩ := (queueBooks_iff.1 h).2.2.2.2 x u hx hi hw
  obtain ⟨waiting, -, queued, -, -⟩ := queueBooks_iff.1 h
  refine ⟨⟨fun p hu => ?_, fun hu => ?_, fun z hz => by rw [quiet] at hz; cases hz⟩, y, (same.standing u).trans hy, hq⟩
  · rw [same.waitList] at hu
    obtain ⟨z, hz, -, hzs⟩ := waiting p u hu
    rw [hy] at hz
    cases hz
    cases hq.symm.trans hzs
  · rw [same.bus.requestQueue] at hu
    obtain ⟨z, hz, -, hzt⟩ := queued u hu
    rw [hy] at hz
    cases hz
    cases ht.symm.trans hzt

/-- R33, R143: a message abandoned on a clash goes back to its queue. -/
theorem queueBooks_returnToQueue {x : Transmission} (hx : s.bus.transmit = some x) (hw : x.withdrawn = false)
    (same : SameBooks s t) (quiet : t.bus.transmit = none) (h : QueueBooks s) : QueueBooks (t.returnToQueue x.item) := by
  have kept := queueBooks_same h same
  unfold State.returnToQueue
  split
  · exact queueBooks_fewer kept (.of_eq rfl rfl rfl) fun _ => rfl
  · exact queueBooks_fewer kept (.of_eq rfl rfl rfl) fun _ => rfl
  rename_i u hi
  obtain ⟨alone, y, hy, hq⟩ := unlisted_of_sending h hx hi hw same quiet
  split
  · exact kept
  rename_i e he
  rw [standing_of_entry he] at hy
  cases hy
  let f : Entry := { e with inTransmission := false }
  obtain ⟨kept, alone⟩ := queueBooks_setEntry kept alone (some f)
  dsimp only
  split
  · have returned := sameBooks_returnCredit (t.setEntry u (some f)) e.peer
    exact queueBooks_retire (queueBooks_same kept returned) (alone.fewer returned.fewerListed) _
  · exact queueBooks_listQueued kept alone (x := standingOf f) (standing_of_entry (State.entry_setEntry_self _ u (some f)))
      hq rfl (List.Perm.refl _)

/-! ## Every step -/

theorem queueBooks_events : EventsKeep QueueBooks where
  toOwnStepsKeep := queueBooks_ownSteps
  empty h _ _ := queueBooks_empty h
  cleanupEntry why he h := queueBooks_cleanupEntry why he h
  cleanupCredit p h := queueBooks_fewer h (fewerListed_cleanupCredit _ p) fun _ => rfl
  abortEntries c h := queueBooks_abortEntries c h
  endLoad o he hl h := queueBooks_endLoad o he hl h
  endStore o he hstate h := queueBooks_retire h (unlisted_of_state h he (by simp [hstate]) (by simp [hstate])) o
  expireReply he hstate h := queueBooks_expireReply he hstate h
  takeReply r quiet h := queueBooks_takeReply r quiet h
  takeAsk p n _ h := queueBooks_takeAsk p n h
  takeGrant p n echo h := queueBooks_takeGrant p n echo h
  spendGrant _ h := queueBooks_fewer h (.of_eq rfl rfl rfl) fun _ => rfl
  enterLeaving _ h := queueBooks_enterLeaving h
  send repliesOnly _ h := queueBooks_send repliesOnly h
  requestSent _ hx hi hw same quiet h :=
    (queueBooks_setEntry (queueBooks_same h same) (unlisted_of_sending h hx hi hw same quiet).1 _).1
  returnToQueue hx hw same _ quiet h := queueBooks_returnToQueue hx hw same quiet h

/-- R53: a credit wait list holds, each once, entries to its peer, so it is no longer than their number. -/
theorem waitList_length_le (h : QueueBooks s) (p : Station) : (s.peer p).waitList.length ≤ s.entriesTo p := by
  have listed : (s.peer p).waitList ⊆ allTags.filter fun v => ((s.entry v).map (·.peer)) = some p := by
    intro v hv
    have every := mem_allTags v
    have waits := h.waiting p v hv
    cases he : s.entry v <;> simp_all
  rw [State.entriesTo, List.countP_eq_length_filter]
  exact (List.subperm_of_subset (h.waitingOnce p) listed).length_le

/-- Settles O32: every operation that touches the credit wait lists, the request queue or the transmission keeps the books,
and through these every command does. -/
theorem everyStepKeepsTheQueueBooks : Obligations.EveryStepKeepsTheQueueBooks := by
  unfold Obligations.EveryStepKeepsTheQueueBooks
  exact ⟨fun _ _ h hstep => queueBooks_events.step h hstep,
    fun _ table h p => (waitList_length_le h p).trans (table.perPeer p)⟩

end Sys2Proof.PeerBus
end

section
/-! SUPPORT. The ask books (R31, R61 to R63) under the operations that touch them. -/
namespace Sys2Proof.PeerBus

open Sys2Proof Sys2Proof.Machine Sys2Proof.Safety

-- Each thread of the elaborator reserves 1 GB under the memory limit of the check.
set_option Elab.async false

variable {s t : State} {u : Tag} {e : Entry}

/-- The ask books with what makes them last (R52): only an ONLINE station has grants, and outside the running phase there is
neither a station state nor a transmission. -/
structure AskKept (s : State) : Prop where
  books : AskBooks s
  zero : s.station.state ≠ some .online → ∀ p, s.grantCount p = 0
  silent : SilentKept s

/-- From `s` to `t` askers, GRANTs, ASKs and grant counts may become fewer, and an ONLINE station is still so. -/
structure FewerAsks (s t : State) : Prop where
  askList : t.credit.askList.Sublist s.credit.askList
  grants : ∀ p, t.bus.controlQueue.countP (Control.isGrantTo p) ≤ s.bus.controlQueue.countP (Control.isGrantTo p)
  asks : ∀ p, t.bus.controlQueue.countP (Control.isAskTo p) ≤ s.bus.controlQueue.countP (Control.isAskTo p)
  sending : ∀ p, grantInTransmission t p ≤ grantInTransmission s p
  grantCount : ∀ p, t.grantCount p ≤ s.grantCount p
  silent : SilentKept s → SilentKept t
  online : SilentKept s → s.station.state = some .online → t.station.state = some .online

theorem grantInTransmission_of_none {p : Station} (h : s.bus.transmit = none) : grantInTransmission s p = 0 := by
  simp [grantInTransmission, h]

theorem grantInTransmission_congr {p : Station} (h : t.bus.transmit = s.bus.transmit) :
    grantInTransmission t p = grantInTransmission s p := by
  simp [grantInTransmission, h]

theorem SameBooks.fewerAsks (h : SameBooks s t) : FewerAsks s t where
  askList := by rw [h.askList]
  grants p := (h.bus.grants p).le
  asks p := (h.bus.asks p).le
  sending p := by
    rcases h.bus.transmit with e | e
    · exact (grantInTransmission_congr e).le
    · rw [grantInTransmission_of_none e]; exact Nat.zero_le _
  grantCount p := (h.grantCount p).le
  silent := h.silent
  online := h.online

/-- A change of the transaction table, the credit wait lists, the channels and the request queue. -/
theorem FewerAsks.of_line (queue : t.bus.controlQueue = s.bus.controlQueue := by simp)
    (transmit : t.bus.transmit = s.bus.transmit := by simp) (credit : t.credit = s.credit := by simp)
    (phase : t.phase = s.phase := by simp) (station : t.station = s.station := by simp) : FewerAsks s t where
  askList := by rw [credit]
  grants p := by rw [queue]
  asks p := by rw [queue]
  sending p := (grantInTransmission_congr transmit).le
  grantCount p := by rw [State.grantCount, credit, State.grantCount]
  silent k := by rwa [SilentKept, phase, station, transmit]
  online _ h := by rwa [station]

theorem FewerAsks.trans {v : State} (h : FewerAsks s t) (h' : FewerAsks t v) : FewerAsks s v where
  askList := h'.askList.trans h.askList
  grants p := (h'.grants p).trans (h.grants p)
  asks p := (h'.asks p).trans (h.asks p)
  sending p := (h'.sending p).trans (h.sending p)
  grantCount p := (h'.grantCount p).trans (h.grantCount p)
  silent k := h'.silent (h.silent k)
  online k o := h'.online (h.silent k) (h.online k o)

theorem FewerAsks.refl (s : State) : FewerAsks s s := .of_line rfl rfl rfl rfl rfl

theorem askKept_fewer (h : AskKept s) (f : FewerAsks s t) : AskKept t where
  books :=
    { once := fun p => (Nat.add_le_add (Nat.add_le_add (f.askList.countP_le) (f.grants p)) (f.sending p)).trans
        (h.books.once p)
      oneAsk := fun p => (f.asks p).trans (h.books.oneAsk p)
      noGrant := fun a ha => Nat.le_zero.1 ((f.grantCount a.peer).trans (h.books.noGrant a (f.askList.subset ha)).le)
      grantsOnline := fun hn p => Nat.le_zero.1 ((Nat.add_le_add (f.grants p) (f.sending p)).trans
        (h.books.grantsOnline (fun ho => hn (f.online h.silent ho)) p).le) }
  zero hn p := Nat.le_zero.1 ((f.grantCount p).trans (h.zero (fun ho => hn (f.online h.silent ho)) p).le)
  silent := f.silent h.silent

theorem askKept_same (h : AskKept s) (same : SameBooks s t) : AskKept t := askKept_fewer h same.fewerAsks

/-- Every state in which nobody asks, nothing is granted and no GRANT is on its way has the ask books kept. -/
theorem askKept_of_none (askList : t.credit.askList = []) (grants : ∀ p, t.bus.controlQueue.countP (Control.isGrantTo p) = 0)
    (asks : ∀ p, t.bus.controlQueue.countP (Control.isAskTo p) ≤ 1) (sending : ∀ p, grantInTransmission t p = 0)
    (zero : ∀ p, t.grantCount p = 0) (silent : SilentKept t) : AskKept t where
  books :=
    { once := fun p => by rw [askList, grants, sending]; exact Nat.zero_le 1
      oneAsk := asks
      noGrant := fun a ha => by rw [askList] at ha; cases ha
      grantsOnline := fun _ p => by rw [grants, sending] }
  zero _ := zero
  silent := silent

/-! ## The part's own steps -/

/-- Queuing a message other than a GRANT leaves the number of GRANTs. -/
theorem countP_isGrantTo_queueControl (s : State) {c : Control} {p : Station} (h : c.isGrantTo p = false) :
    (s.queueControl c).bus.controlQueue.countP (Control.isGrantTo p)
      = s.bus.controlQueue.countP (Control.isGrantTo p) := by
  simp [State.queueControl, countP_isGrantTo_coalesce, h, bit]

/-- An ASK is queued (R31, R56). -/
theorem askKept_ask (p : Station) (h : AskKept s) : AskKept (s.ask p) where
  books :=
    { once := fun r => (countP_isGrantTo_queueControl s (c := .ask p (s.wanted p)) (p := r) rfl).symm ▸ h.books.once r
      oneAsk := fun r => countP_isAskTo_coalesce_le s.bus.controlQueue (.ask p (s.wanted p)) r (h.books.oneAsk r)
      noGrant := h.books.noGrant
      grantsOnline := fun hn r =>
        (countP_isGrantTo_queueControl s (c := .ask p (s.wanted p)) (p := r) rfl).symm ▸ h.books.grantsOnline hn r }
  zero := h.zero
  silent := h.silent

/-- The GRANT's peer leaves the ask list as its GRANT joins the control queue: the count of both together stays. -/
theorem countP_granted (a : Asker) (rest : List Asker) (q : List Control) (g : Nat) (echo : Byte) (p : Station) :
    rest.countP (fun a => a.peer = p) + (coalesce q (.grant a.peer g echo)).countP (Control.isGrantTo p)
      = (a :: rest).countP (fun a => a.peer = p) + q.countP (Control.isGrantTo p) := by
  rw [countP_isGrantTo_coalesce, List.countP_cons]
  by_cases h : a.peer = p
  · simp [Control.isGrantTo, h, bit]; omega
  · simp [Control.isGrantTo, h, bit]

/-- R63: the oldest asker leaves the ask list, and its GRANT is queued. -/
theorem askKept_granting (hg : s.granting = some t) (h : AskKept s) : AskKept t := by
  obtain ⟨a, rest, hl, online, -, g, -, rfl⟩ := State.granting_spec hg
  have isOnline : s.station.state = some .online := by simpa [State.inState] using online
  have once := h.books.once
  rw [hl] at once
  let echo : Byte := (s.peer a.peer).incarnation.getD 0#8
  refine ⟨⟨fun p => ?_, fun p => ?_, fun b hb => ?_, fun hn => absurd isOnline hn⟩, fun hn => absurd isOnline hn, h.silent⟩
  · have := once p
    rw [← countP_granted a rest s.bus.controlQueue g echo p] at this
    exact this
  · exact countP_isAskTo_coalesce_le s.bus.controlQueue (.grant a.peer g echo) p (h.books.oneAsk p)
  · have other : a.peer ≠ b.peer := fun hab => by
      have twice := once b.peer
      have again : 0 < rest.countP fun c => c.peer = b.peer := List.countP_pos_iff.2 ⟨b, hb, by simp⟩
      rw [List.countP_cons_of_pos (by simpa using hab)] at twice
      omega
    have zero : s.grantCount b.peer = 0 := h.books.noGrant b (by rw [hl]; exact List.mem_cons_of_mem a hb)
    exact (State.grantCount_setGrant_of_ne s other _).trans zero

theorem askKept_ownSteps : OwnStepsKeep AskKept where
  same same h := askKept_same h same
  absentRetire hr h := by
    obtain ⟨e, reason, -, -, -, rfl⟩ := State.absentRetire_spec hr
    exact askKept_fewer h .of_line
  creditHanding hc h := by
    obtain ⟨u, rest, e, seq, next, -, -, -, -, -, -, rfl⟩ := State.creditHanding_spec hc
    exact askKept_fewer h (.of_line rfl rfl rfl rfl rfl)
  ask p h := askKept_ask p h
  entryAllocation ha h := by
    obtain ⟨c, rest, u, -, -, -, rfl⟩ := State.entryAllocation_spec ha
    exact askKept_fewer h .of_line
  granting hg h := askKept_granting hg h

/-! ## Entries: retirement, replies, abort -/

/-- A retirement touches no asker, GRANT or ASK. -/
theorem fewerAsks_retire (s : State) (u : Tag) (o : PieceOutcome) : FewerAsks s (s.retire u o) := .of_line

theorem fewerAsks_joinWaitList (s : State) (u : Tag) (p : Station) : FewerAsks s (s.joinWaitList u p) := .of_line

theorem fewerAsks_withdrawRequest (s : State) (u : Tag) : FewerAsks s (s.withdrawRequest u) := .of_line rfl rfl rfl rfl rfl

/-- The withdrawal of a request that is being sent is none of a GRANT. -/
theorem fewerAsks_withdrawSending (s : State) (u : Tag) : FewerAsks s (s.withdrawSending u) where
  askList := List.Sublist.refl _
  grants _ := Nat.le_refl _
  asks _ := Nat.le_refl _
  sending p := by
    unfold grantInTransmission State.withdrawSending
    cases s.bus.transmit with
    | none => exact Nat.le_refl _
    | some x =>
        by_cases h : x.item = .request u
        · simp [h]
        · simp [h]
  grantCount _ := Nat.le_refl _
  silent k h := ⟨(k h).1, by simp [State.withdrawSending, (k h).2]⟩
  online _ := id

theorem fewerAsks_cleanupEntry (s : State) (why : FaultCode) (u : Tag) (e : Entry) :
    FewerAsks s (s.cleanupEntry why u e) := by
  unfold State.cleanupEntry
  split
  · exact .of_line
  · split
    · exact (fewerAsks_withdrawSending s u).trans (fewerAsks_retire _ _ _)
    · exact (fewerAsks_withdrawRequest s u).trans (fewerAsks_retire _ _ _)
  · exact fewerAsks_retire s u _
  · exact .of_line
  · exact .refl s

theorem fewerAsks_endLoad (s : State) (u : Tag) (e : Entry) (o : AccessEnd) : FewerAsks s (s.endLoad u e o) := by
  unfold State.endLoad
  split
  · exact fewerAsks_retire s u _
  · exact fewerAsks_retire s u _
  split
  · exact fewerAsks_retire s u _
  · exact .of_line

theorem fewerAsks_expireReply (s : State) (u : Tag) (e : Entry) : FewerAsks s (s.expireReply u e) := by
  unfold State.expireReply
  split
  · exact fewerAsks_retire s u _
  split
  · exact fewerAsks_joinWaitList s u _
  · exact fewerAsks_retire s u _

theorem fewerAsks_takeReply (s : State) (r : ReplyHeard) : FewerAsks s (s.takeReply r) := by
  have left (e : Entry) : FewerAsks s (s.leaveForReply r.tag e) := by
    unfold State.leaveForReply
    split
    case h_1 => exact .of_line
    case h_2 => exact (fewerAsks_withdrawRequest s r.tag).trans .of_line
    case h_3 => exact .of_line
    all_goals exact .refl s
  have read (v : State) (e : Entry) : FewerAsks v (v.settleRead r.tag e r.payload) := by
    unfold State.settleRead
    split
    · exact fewerAsks_retire v _ _
    · exact .of_line
  have noCredit (v : State) (e : Entry) : FewerAsks v (v.settleNoCredit r.tag e) := by
    simp only [State.settleNoCredit]
    split
    · exact .of_line
    · exact .of_line
  unfold State.takeReply
  split
  · exact .refl s
  rename_i e _
  split
  · simp only [State.settleReply]
    refine (left e).trans ?_
    split
    · split
      · exact fewerAsks_retire _ _ _
      · exact read _ _
    · exact fewerAsks_retire _ _ _
    · exact fewerAsks_retire _ _ _
    · exact fewerAsks_retire _ _ _
    · exact noCredit _ _
  · exact .refl s

theorem fewerAsks_markEntry (c : Chan) (s : State) (v : Tag) : FewerAsks s (markEntry c s v) := by
  unfold markEntry
  split
  · exact .refl s
  split
  · dsimp only
    split
    · exact .of_line
    · exact .of_line
  · exact .refl s

theorem fewerAsks_abortEntry (c : Chan) (s : State) (v : Tag) : FewerAsks s (s.abortEntry c v) := by
  unfold State.abortEntry
  split
  · exact .refl s
  split
  · split
    · exact fewerAsks_retire s v _
    · split
      · exact .refl s
      · exact (fewerAsks_withdrawRequest s v).trans .of_line
    all_goals exact .refl s
  · exact .refl s

theorem askKept_abortEntries (c : Chan) (h : AskKept s) : AskKept (s.abortEntries c) := by
  have keeps {f : State → Tag → State} (hf : ∀ s v, AskKept s → AskKept (f s v)) (l : List Tag) {s : State}
      (h : AskKept s) : AskKept (l.foldl f s) := by
    induction l generalizing s with
    | nil => exact h
    | cons v l ih => exact ih (hf s v h)
  have marked : AskKept (s.markAborting c) := by
    rw [markAborting_eq]
    exact keeps (fun s v h => askKept_fewer h (fewerAsks_markEntry c s v)) allTags h
  exact keeps (fun s v h => askKept_ownSteps.settle (askKept_fewer h (fewerAsks_abortEntry c s v))) allTags marked

/-! ## Withdrawal (R31, R33) -/

/-- A control message in transmission counts as a GRANT on its way unless it has been withdrawn. -/
theorem grantInTransmission_control {x : Transmission} {c : Control} (hx : s.bus.transmit = some x)
    (hi : x.item = .control c) (p : Station) :
    grantInTransmission s p = if x.withdrawn then 0 else bit (c.isGrantTo p) := by
  unfold grantInTransmission
  rw [hx]
  dsimp only
  rw [hi]
  rfl

/-- A reply or a request in transmission is no GRANT. -/
theorem grantInTransmission_other {x : Transmission} (hx : s.bus.transmit = some x) (hi : ∀ c, x.item ≠ .control c)
    (p : Station) : grantInTransmission s p = 0 := by
  unfold grantInTransmission
  rw [hx]
  dsimp only
  split
  · rfl
  · split
    · exact absurd ‹_› (hi _)
    · rfl
    · rfl

theorem fewerAsks_withdrawControl (s : State) (f : Control → Bool) : FewerAsks s (s.withdrawControl f) where
  askList := List.Sublist.refl _
  grants _ := List.filter_sublist.countP_le
  asks _ := List.filter_sublist.countP_le
  sending p := by
    cases hx : s.bus.transmit with
    | none =>
        have : (s.withdrawControl f).bus.transmit = none := by simp [State.withdrawControl, hx]
        rw [grantInTransmission_of_none this]
        exact Nat.zero_le _
    | some x =>
        have after : (s.withdrawControl f).bus.transmit = some (x.withdrawIf f) := by simp [State.withdrawControl, hx]
        cases hi : x.item with
        | control c =>
            have hi' : (x.withdrawIf f).item = .control c := (withdrawIf_item f x).trans hi
            rw [grantInTransmission_control after hi', grantInTransmission_control hx hi]
            cases hw : x.withdrawn with
            | true => simp [withdrawIf_withdrawn f hw]
            | false => split <;> simp
        | reply r =>
            rw [grantInTransmission_other after fun c hc => by rw [withdrawIf_item, hi] at hc; cases hc]
            exact Nat.zero_le _
        | request v =>
            rw [grantInTransmission_other after fun c hc => by rw [withdrawIf_item, hi] at hc; cases hc]
            exact Nat.zero_le _
  grantCount _ := Nat.le_refl _
  silent k h := ⟨(k h).1, by simp [State.withdrawControl, (k h).2]⟩
  online _ := id

theorem fewerAsks_setGrant (s : State) {p : Station} {n : Nat} (h : n ≤ s.grantCount p) : FewerAsks s (s.setGrant p n) where
  askList := List.Sublist.refl _
  grants _ := Nat.le_refl _
  asks _ := Nat.le_refl _
  sending _ := Nat.le_refl _
  grantCount r := by
    rw [State.grantCount_setGrant]
    split
    · subst_vars; exact h
    · exact Nat.le_refl _
  silent := id
  online _ := id

/-- R46: the cleanup of the credit state. -/
theorem fewerAsks_cleanupCredit (s : State) (p : Station) : FewerAsks s (s.cleanupCredit p) := by
  have stopped := (sameBooks_modPeer s p fun q => { q with held := 0, asked := false, askTimer := .stopped }).fewerAsks
  have filtered (v : State) : FewerAsks v { v with credit := { v.credit with
      askList := v.credit.askList.filter fun a => a.peer ≠ p } } :=
    ⟨List.filter_sublist, fun _ => Nat.le_refl _, fun _ => Nat.le_refl _, fun _ => Nat.le_refl _, fun _ => Nat.le_refl _,
      id, fun _ => id⟩
  exact ((stopped.trans (fewerAsks_withdrawControl _ _)).trans (fewerAsks_setGrant _ (Nat.zero_le _))).trans (filtered _)

/-! ## Asking (R61, R62) -/

/-- The asker stands in the ask list once, and the others as often as before. -/
theorem countP_addAsker (l : List Asker) (p r : Station) (n : Nat) (h : l.countP (fun a => a.peer = r) ≤ 1) :
    (addAsker l p n).countP (fun a => a.peer = r) ≤ if p = r then 1 else l.countP (fun a => a.peer = r) := by
  unfold addAsker
  split
  · have same : (l.map fun a => if a.peer = p then { a with wanted := n } else a).countP (fun a => a.peer = r)
        = l.countP fun a => a.peer = r := by
      rw [List.countP_map]
      refine List.countP_congr fun a _ => ?_
      simp only [Function.comp]
      split <;> rfl
    rw [same]
    split
    · exact h
    · exact Nat.le_refl _
  · have none : l.countP (fun a => a.peer = p) = 0 := by
      rw [List.countP_eq_zero]
      exact fun a ha hap => ‹¬_› (List.any_eq_true.2 ⟨a, ha, hap⟩)
    rw [List.countP_append]
    split
    · subst_vars
      rw [none]
      simp
    · simp [‹¬p = r›]

/-- Who stands in the ask list after an ASK stood there before, or has asked. -/
theorem peer_of_mem_addAsker {l : List Asker} {p : Station} {n : Nat} {a : Asker} (h : a ∈ addAsker l p n) :
    a.peer = p ∨ a ∈ l := by
  unfold addAsker at h
  split at h
  · obtain ⟨b, hb, rfl⟩ := List.mem_map.1 h
    split
    · exact .inl ‹_›
    · exact .inr hb
  · rcases List.mem_append.1 h with h | h
    · exact .inr h
    · cases List.mem_singleton.1 h
      exact .inl rfl

/-- A peer without a grant and without a GRANT on its way joins the ask list. -/
theorem askKept_joinAskList (h : AskKept s) (p : Station) (n : Nat) (noGrant : s.grantCount p = 0)
    (none : s.bus.controlQueue.countP (Control.isGrantTo p) + grantInTransmission s p = 0) :
    AskKept (s.joinAskList p n) where
  books :=
    { once := fun r => by
        have before := h.books.once r
        have after := countP_addAsker s.credit.askList p r n (by omega)
        change (addAsker s.credit.askList p n).countP (fun a => a.peer = r)
          + s.bus.controlQueue.countP (Control.isGrantTo r) + grantInTransmission s r ≤ 1
        by_cases hr : p = r
        · subst hr
          rw [if_pos rfl] at after
          omega
        · rw [if_neg hr] at after
          omega
      oneAsk := h.books.oneAsk
      noGrant := fun a ha => by
        rcases peer_of_mem_addAsker ha with hp | ha
        · exact hp ▸ noGrant
        · exact h.books.noGrant a ha
      grantsOnline := h.books.grantsOnline }
  zero := h.zero
  silent := h.silent

theorem askKept_takeAsk (p : Station) (n : Nat) (quiet : s.bus.transmit = none) (h : AskKept s) :
    AskKept (s.takeAsk p n) := by
  unfold State.takeAsk
  split
  · have joining : s.station.state ≠ some .online := by simp_all [State.inState]
    exact askKept_joinAskList h p n (h.zero joining p) (h.books.grantsOnline joining p)
  split
  · split
    · exact h
    · have none : s.bus.controlQueue.countP (Control.isGrantTo p) = 0 := by
        rw [List.countP_eq_zero]
        exact fun c hc hcp => ‹¬_› (List.any_eq_true.2 ⟨c, hc, hcp⟩)
      refine askKept_joinAskList (askKept_fewer h (fewerAsks_setGrant s (Nat.zero_le _))) p n
        (State.grantCount_setGrant_self s p 0) ?_
      exact (congrArg₂ (· + ·) none (grantInTransmission_of_none quiet))
  · exact h

theorem askKept_takeGrant (p : Station) (n : Nat) (echo : Byte) (h : AskKept s) : AskKept (s.takeGrant p n echo) := by
  unfold State.takeGrant
  split
  · exact askKept_fewer (askKept_same h (sameBooks_modPeer s p _)) (fewerAsks_withdrawControl _ _)
  · exact h

/-! ## Station states -/

/-- R11: on the entry into LEAVING askers, grants, ASKs and GRANTs go. -/
theorem askKept_enterLeaving (running : s.phase = .running) : AskKept s.enterLeaving := by
  let v : State := { s.enterStation .leaving with credit :=
    { (s.enterStation .leaving).credit with askList := [], grants := .replicate 16 0 } }
  have cleared : SameBooks (v.withdrawControl Control.isCredit) (v.withdrawControl Control.isCredit).clearAsked := by
    unfold State.clearAsked
    refine sameBooks_foldl (fun w p => ?_) _ _
    exact sameBooks_modPeer w p _
  have gone {f : Control → Bool} (hf : ∀ c, f c = true → c.isCredit = true) :
      (v.withdrawControl Control.isCredit).bus.controlQueue.countP f = 0 := by
    rw [List.countP_eq_zero]
    intro c hc hfc
    have := List.of_mem_filter hc
    rw [hf c hfc] at this
    cases this
  have credit (p : Station) (c : Control) : (c.isGrantTo p = true → c.isCredit = true) ∧
      (c.isAskTo p = true → c.isCredit = true) := by
    cases c <;> simp [Control.isGrantTo, Control.isAskTo, Control.isCredit]
  refine askKept_same (askKept_of_none rfl (fun p => gone fun c => (credit p c).1)
    (fun p => (gone fun c => (credit p c).2).le.trans (Nat.zero_le 1)) (fun p => ?_)
    (fun p => by simp [v, State.grantCount]) (fun hp => absurd running hp)) cleared
  cases hx : s.bus.transmit with
  | none =>
      have : (v.withdrawControl Control.isCredit).bus.transmit = none := by simp [v, State.withdrawControl, hx]
      exact grantInTransmission_of_none this
  | some x =>
      have after : (v.withdrawControl Control.isCredit).bus.transmit = some (x.withdrawIf Control.isCredit) := by
        simp [v, State.withdrawControl, hx]
      cases hi : x.item with
      | control c =>
          rw [grantInTransmission_control after ((withdrawIf_item _ x).trans hi)]
          cases hc : c.isGrantTo p with
          | false => simp [bit]
          | true =>
              have : (x.withdrawIf Control.isCredit).withdrawn = true := by
                simp [Transmission.withdrawIf, hi, (credit p c).1 hc]
              rw [this]; rfl
      | reply r => exact grantInTransmission_other after (fun c hc => by rw [withdrawIf_item, hi] at hc; cases hc) p
      | request w => exact grantInTransmission_other after (fun c hc => by rw [withdrawIf_item, hi] at hc; cases hc) p

theorem askKept_empty (h : BooksEmpty t) (silent : SilentKept t) : AskKept t :=
  askKept_of_none h.askList h.grants (fun p => (h.asks p).le.trans (Nat.zero_le 1))
    (fun _ => grantInTransmission_of_none h.transmit) h.grantCount silent

/-! ## Transmission -/

/-- Who may transmit is running, if the silent phases are kept, and transmits nothing yet. -/
theorem running_of_mayTransmit (h : s.mayTransmit = true) (silent : SilentKept s) : s.phase = .running := by
  by_contra hp
  simp [State.mayTransmit, State.transmitterOn, State.receiverOn, State.inState, (silent hp).1] at h

theorem noTransmission_of_mayTransmit (h : s.mayTransmit = true) : s.bus.transmit = none := by
  simp only [State.mayTransmit, Bool.and_eq_true, Option.isNone_iff_eq_none] at h
  exact h.1.2

/-- A reply or a request goes out: no asker, GRANT or ASK moves. -/
theorem fewerAsks_transmit {x : Transmission} (running : SilentKept s → s.phase = .running)
    (hx : t.bus.transmit = some x) (hi : ∀ c, x.item ≠ .control c) (queue : t.bus.controlQueue = s.bus.controlQueue)
    (credit : t.credit = s.credit) (phase : t.phase = s.phase) (station : t.station = s.station) : FewerAsks s t where
  askList := by rw [credit]
  grants p := by rw [queue]
  asks p := by rw [queue]
  sending p := by rw [grantInTransmission_other hx hi]; exact Nat.zero_le _
  grantCount p := by rw [State.grantCount, credit, State.grantCount]
  silent k h := absurd (phase.trans (running k)) h
  online _ h := by rwa [station]

/-- R29: the head of the control queue goes out: a GRANT on its way stays one. -/
theorem askKept_sendControl (running : SilentKept s → s.phase = .running) (quiet : s.bus.transmit = none) {c : Control}
    {rest : List Control} (hq : s.bus.controlQueue = c :: rest) (m : Message) (h : AskKept s) :
    AskKept ({ s with bus := { s.bus with controlQueue := rest } }.transmitNow (.control c) m) := by
  let v : State := { s with bus := { s.bus with controlQueue := rest } }.transmitNow (.control c) m
  have sent (p : Station) : rest.countP (Control.isGrantTo p) + grantInTransmission v p
      = s.bus.controlQueue.countP (Control.isGrantTo p) + grantInTransmission s p := by
    have control : grantInTransmission v p = bit (c.isGrantTo p) := by
      rw [grantInTransmission_control (s := v) rfl rfl]; rfl
    rw [control, grantInTransmission_of_none quiet, hq, List.countP_cons]
    rfl
  refine ⟨⟨fun p => ?_, fun p => ?_, h.books.noGrant, fun hn p => ?_⟩, h.zero, fun hp => absurd (running h.silent) hp⟩
  · have once := h.books.once p
    rw [Nat.add_assoc, ← sent p, ← Nat.add_assoc] at once
    exact once
  · have one := h.books.oneAsk p
    rw [hq] at one
    exact (List.sublist_cons_self c rest).countP_le.trans one
  · exact (sent p).trans (h.books.grantsOnline hn p)

theorem askKept_send (repliesOnly : Bool) (may : s.mayTransmit = true) (h : AskKept s) : AskKept (s.send repliesOnly) := by
  have running : SilentKept s → s.phase = .running := running_of_mayTransmit may
  unfold State.send
  split
  · exact askKept_fewer h (fewerAsks_transmit running rfl nofun rfl rfl rfl rfl)
  split
  · exact h
  split
  · exact askKept_sendControl running (noTransmission_of_mayTransmit may) ‹_› _ h
  unfold State.sendRequest
  split
  · exact h
  split
  · exact h
  · exact askKept_fewer h (fewerAsks_transmit running rfl nofun rfl rfl rfl rfl)

/-! ## A control message returned after a clash (R33) -/

theorem countP_isGrantTo_foldl_coalesce (l q : List Control) (p : Station) :
    (l.foldl coalesce q).countP (Control.isGrantTo p)
      = q.countP (Control.isGrantTo p) + l.countP (Control.isGrantTo p) := by
  induction l generalizing q with
  | nil => rfl
  | cons c l ih =>
      rw [List.foldl_cons, ih, countP_isGrantTo_coalesce, List.countP_cons, bit]
      omega

/-- The returned message counts once more among the GRANTs if it is one. -/
theorem countP_isGrantTo_returnControl (q : List Control) (c : Control) (p : Station) :
    (returnControl q c).countP (Control.isGrantTo p) = q.countP (Control.isGrantTo p) + bit (c.isGrantTo p) := by
  rw [returnControl, List.countP_append, countP_isGrantTo_foldl_coalesce,
    List.countP_eq_countP_filter_add q (Control.isGrantTo p) c.sameGroup, List.countP_singleton, bit]
  omega

theorem countP_isAskTo_foldl_coalesce_le (l : List Control) {q : List Control} {p : Station}
    (h : q.countP (Control.isAskTo p) ≤ 1) : (l.foldl coalesce q).countP (Control.isAskTo p) ≤ 1 := by
  induction l generalizing q with
  | nil => exact h
  | cons c l ih => exact ih (countP_isAskTo_coalesce_le q c p h)

/-- Where no message is an ASK to `p`, coalescing makes none. -/
theorem countP_isAskTo_foldl_coalesce_zero (l : List Control) {q : List Control} {p : Station}
    (hq : q.countP (Control.isAskTo p) = 0) (hl : ∀ c ∈ l, c.isAskTo p = false) :
    (l.foldl coalesce q).countP (Control.isAskTo p) = 0 := by
  induction l generalizing q with
  | nil => exact hq
  | cons c l ih =>
      exact ih ((countP_isAskTo_coalesce q (hl c List.mem_cons_self)).trans hq) fun d hd => hl d (List.mem_cons_of_mem c hd)

/-- An ASK coalesces with the waiting ones to its peer only, every other message with no ASK. -/
theorem sameGroup_isAskTo {c d : Control} {p : Station} (hd : d.isAskTo p = true) :
    c.sameGroup d = c.isAskTo p := by
  cases d with
  | join | presence | leave | grant _ _ _ => cases hd
  | ask q n =>
      have hq : q = p := by simpa [Control.isAskTo] using hd
      subst hq
      cases c with
      | join | presence | leave => rfl
      | grant r m e => rfl
      | ask r m => simp [Control.sameGroup, Control.isAskTo, eq_comm]

/-- The returned message leaves at most one ASK to a peer waiting. -/
theorem countP_isAskTo_returnControl_le (q : List Control) (c : Control) (p : Station)
    (h : q.countP (Control.isAskTo p) ≤ 1) : (returnControl q c).countP (Control.isAskTo p) ≤ 1 := by
  rw [returnControl, List.countP_append]
  cases hc : c.isAskTo p with
  | true =>
      have rest : (q.filter fun x => !c.sameGroup x).countP (Control.isAskTo p) = 0 := by
        rw [List.countP_eq_zero]
        intro d hd hdp
        have := List.of_mem_filter hd
        simp [sameGroup_isAskTo hdp, hc] at this
      have first : ([c] : List Control).countP (Control.isAskTo p) ≤ 1 := List.countP_le_length
      rw [rest]
      exact countP_isAskTo_foldl_coalesce_le _ first
  | false =>
      have first : ((q.filter c.sameGroup).foldl coalesce [c]).countP (Control.isAskTo p) = 0 := by
        refine countP_isAskTo_foldl_coalesce_zero _ (by simp [hc]) fun d hd => ?_
        by_contra hdp
        have := List.of_mem_filter hd
        rw [sameGroup_isAskTo (by simpa using hdp), hc] at this
        cases this
      rw [first, Nat.zero_add]
      exact List.filter_sublist.countP_le.trans h

theorem askKept_returnToQueue {x : Transmission} (hx : s.bus.transmit = some x) (hw : x.withdrawn = false)
    (same : SameBooks s t) (queue : t.bus.controlQueue = s.bus.controlQueue) (quiet : t.bus.transmit = none)
    (h : AskKept s) : AskKept (t.returnToQueue x.item) := by
  have kept := askKept_same h same
  unfold State.returnToQueue
  split
  · exact askKept_fewer kept (.of_line rfl rfl rfl rfl rfl)
  · rename_i c hi
    have control (p : Station) : (returnControl t.bus.controlQueue c).countP (Control.isGrantTo p)
        = s.bus.controlQueue.countP (Control.isGrantTo p) + grantInTransmission s p := by
      rw [countP_isGrantTo_returnControl, queue, grantInTransmission_control hx hi, hw]
      rfl
    let v : State := { t with bus := { t.bus with controlQueue := returnControl t.bus.controlQueue c } }
    have none (p : Station) : grantInTransmission v p = 0 := grantInTransmission_of_none quiet
    refine ⟨⟨fun p => ?_, fun p => ?_, kept.books.noGrant, fun hn p => ?_⟩, kept.zero, kept.silent⟩
    · change t.credit.askList.countP _ + (returnControl t.bus.controlQueue c).countP _ + grantInTransmission v p ≤ 1
      rw [none, control, same.askList, Nat.add_zero, ← Nat.add_assoc]
      exact h.books.once p
    · exact countP_isAskTo_returnControl_le _ c p (kept.books.oneAsk p)
    · change (returnControl t.bus.controlQueue c).countP _ + grantInTransmission v p = 0
      rw [none, control]
      exact h.books.grantsOnline (fun ho => hn (same.online h.silent ho)) p
  · split
    · exact kept
    dsimp only
    split
    · exact askKept_fewer kept .of_line
    · exact askKept_fewer kept (.of_line rfl rfl rfl rfl rfl)

/-! ## Every step -/

theorem askKept_events : EventsKeep AskKept where
  toOwnStepsKeep := askKept_ownSteps
  empty books silent h := askKept_empty books (silent h.silent)
  cleanupEntry why _ h := askKept_fewer h (fewerAsks_cleanupEntry _ why _ _)
  cleanupCredit p h := askKept_fewer h (fewerAsks_cleanupCredit _ p)
  abortEntries c h := askKept_abortEntries c h
  endLoad o _ _ h := askKept_fewer h (fewerAsks_endLoad _ _ _ o)
  endStore o _ _ h := askKept_fewer h (fewerAsks_retire _ _ o)
  expireReply _ _ h := askKept_fewer h (fewerAsks_expireReply _ _ _)
  takeReply r _ h := askKept_fewer h (fewerAsks_takeReply _ r)
  takeAsk p n quiet h := askKept_takeAsk p n quiet h
  takeGrant p n echo h := askKept_takeGrant p n echo h
  spendGrant _ h := askKept_fewer h (fewerAsks_setGrant _ (Nat.sub_le _ 1))
  enterLeaving running _ := askKept_enterLeaving running
  send repliesOnly may h := askKept_send repliesOnly may h
  requestSent _ _ _ _ same _ h := askKept_fewer (askKept_same h same) (.of_line rfl rfl rfl rfl rfl)
  returnToQueue hx hw same queue quiet h := askKept_returnToQueue hx hw same queue quiet h

/-- Settles O54: with what the credit books add, every operation that touches askers, GRANTs or ASKs keeps the ask books, and
through these every command does. -/
theorem everyStepKeepsTheAskBooks : Obligations.EveryStepKeepsTheAskBooks := by
  unfold Obligations.EveryStepKeepsTheAskBooks
  intro s t credit asks h
  have kept : AskKept s := ⟨asks, credit.grantsOnline, fun hp => ⟨(credit.silent hp).1, (credit.silent hp).2.1⟩⟩
  exact (askKept_events.step kept h).books

end Sys2Proof.PeerBus
end

section
/-! SUPPORT. Messages on the line (R17 to R23, R34 to R36): framing and parsing read back what was sent; what the receiver makes
of the levels; readback and arbitration. -/
namespace Sys2Proof.PeerBus

open Sys2Proof Sys2Proof.Machine Sys2Proof.Safety

-- Each thread of the elaborator reserves 1 GB under the memory limit of the check.
set_option Elab.async false

/-! ## Bytes and words -/

theorem byteOfBits_bits (b : Byte) : byteOfBits (b.getLsbD 7) (b.getLsbD 6) (b.getLsbD 5) (b.getLsbD 4) (b.getLsbD 3)
    (b.getLsbD 2) (b.getLsbD 1) (b.getLsbD 0) = b := by
  revert b; decide +kernel

theorem wordOfBytes_bytes (w : Word) : wordOfBytes (lowByte w) (highByte w) = w := by
  refine BitVec.eq_of_getLsbD_eq fun i hi => ?_
  simp only [wordOfBytes, lowByte, highByte, BitVec.getLsbD_append, BitVec.getLsbD_extractLsb']
  by_cases h : i < 8
  · simp [h]
  · simp [h, show i - 8 < 8 by omega, show 8 + (i - 8) = i by omega]

theorem offset_bytes (o : BitVec 24) : o.extractLsb' 16 8 ++ o.extractLsb' 8 8 ++ o.extractLsb' 0 8 = o := by
  refine BitVec.eq_of_getLsbD_eq fun i hi => ?_
  simp only [BitVec.getLsbD_append, BitVec.getLsbD_extractLsb']
  by_cases h : i < 8
  · simp [h]
  by_cases h' : i - 8 < 8
  · simp [h, h', show 8 + (i - 8) = i by omega]
  · simp [h, h', show i - 8 - 8 < 8 by omega, show 16 + (i - 8 - 8) = i by omega]

/-! ## Framing (R17) -/

theorem lineBits_cons (b : Byte) (bytes : List Byte) : lineBits (b :: bytes) = lineByte b ++ lineBits bytes := rfl

theorem length_lineBits (bytes : List Byte) : (lineBits bytes).length = 10 * bytes.length := by
  induction bytes with
  | nil => rfl
  | cons b bytes ih =>
      rw [lineBits_cons, List.length_append, ih, List.length_cons]
      simp [lineByte, bitsOfByte]
      omega

theorem deframe_lineBits (bytes : List Byte) : deframe (lineBits bytes) = some bytes := by
  induction bytes with
  | nil => rfl
  | cons b bytes ih => simpa [lineBits_cons, lineByte, bitsOfByte, deframe, ih] using byteOfBits_bits b

/-! ## Layout and check (R19, R21) -/

/-- The payload of a WRITE or DATA. -/
def payloadOf : Body → List Byte
  | .write _ _ _ _ _ payload | .data _ _ _ _ payload => payload
  | .join _ | .presence _ | .leave _ | .ask _ | .grant _ _ | .read _ _ _ _ _ _ | .ack _ _ _ _ => []

/-- A well-formed message carries no more than 64 bytes of payload (R21). -/
theorem length_payload_le {m : Message} (h : m.wellFormed = true) : (payloadOf m.body).length ≤ 64 := by
  cases hb : m.body with
  | write tag seq low window offset payload =>
      simp only [Message.wellFormed, hb, wfRequest, Bool.and_eq_true, decide_eq_true_eq] at h
      exact h.2.2
  | data tag seq echo status payload =>
      simp only [Message.wellFormed, hb, wfDataLength, Bool.and_eq_true] at h
      obtain ⟨-, length⟩ := h
      split at length
      · simp only [Bool.and_eq_true, decide_eq_true_eq] at length
        exact length.2
      · simp only [decide_eq_true_eq] at length
        simp [payloadOf, length]
  | join _ | presence _ | leave _ | ask _ | grant _ _ | read _ _ _ _ _ _ | ack _ _ _ _ => exact Nat.zero_le _

/-- The length byte holds the number of payload bytes. -/
theorem length_mod {payload : List Byte} (h : payload.length ≤ 64) : payload.length % 256 = payload.length :=
  Nat.mod_eq_of_lt (by omega)

/-- The kind fields read back as they were. -/
theorem parseBody_fields {b : Body} (h : (payloadOf b).length ≤ 64) : parseBody b.kind b.fields = some b := by
  cases b with
  | join w | presence w | leave w => simp [parseBody, Body.kind, Body.fields, wordBytes, wordOfBytes_bytes]
  | ask n => rfl
  | grant n echo => rfl
  | write tag seq low window offset payload =>
      simp [parseBody, Body.kind, Body.fields, offsetBytes, offset_bytes, length_mod (payload := payload) h]
  | read tag seq low window offset length => simp [parseBody, Body.kind, Body.fields, offsetBytes, offset_bytes]
  | ack tag seq echo status => rfl
  | data tag seq echo status payload => simp [parseBody, Body.kind, Body.fields, length_mod (payload := payload) h]

theorem length_fields {b : Body} (h : (payloadOf b).length ≤ 64) : 1 ≤ b.fields.length ∧ b.fields.length ≤ 72 := by
  cases b with
  | write tag seq low window offset payload =>
      have : payload.length ≤ 64 := h
      simp only [Body.fields, offsetBytes, List.length_append, List.length_cons, List.length_nil]
      omega
  | data tag seq echo status payload =>
      have : payload.length ≤ 64 := h
      simp only [Body.fields, List.length_append, List.length_cons, List.length_nil]
      omega
  | join _ | presence _ | leave _ | ask _ | grant _ _ | read _ _ _ _ _ _ | ack _ _ _ _ =>
      simp [Body.fields, wordBytes, offsetBytes]

/-- A message has 7 to 78 bytes (R18). -/
theorem length_bytes {m : Message} (h : (payloadOf m.body).length ≤ 64) : 7 ≤ m.bytes.length ∧ m.bytes.length ≤ 78 := by
  have fields := length_fields h
  simp only [Message.bytes, Message.head, wordBytes, List.length_append, List.length_cons, List.length_nil]
  omega

/-! ## The row of a message (R22, R23) -/

/-- The row that source, destination and kind of a well-formed message decide at station `own` in a group of `n`. -/
def rowAt (own n : Nat) (m : Message) : Instr :=
  if m.source.toNat = own then .ownNumberHeard
  else if n ≤ m.source.toNat then .sourceNOrHigherHeard m.source
  else if m.dest.toNat = own ∨ m.dest = Config.toAll then m.row
  else .overheardMessage m.dest m.source m.body.kind m.inc

theorem rowOfHeard_head {m : Message} (h : m.wellFormed = true) (own n : Nat) : rowOfHeard own n m.head = rowAt own n m := by
  have parsed := parseBody_fields (length_payload_le h)
  simp only [rowOfHeard, Message.head, List.cons_append, List.nil_append, parsed, h, rowAt, Bool.not_true,
    Bool.false_eq_true, if_false, Bool.or_eq_true, decide_eq_true_eq]

/-- The check at the end of a message is the one of the bytes before it (R19). -/
theorem rowOfBytes_bytes {m : Message} (h : m.wellFormed = true) (own n : Nat) :
    rowOfBytes own n m.bytes = rowAt own n m := by
  obtain ⟨least, most⟩ := length_bytes (length_payload_le h)
  have check : m.bytes.length - 2 = m.head.length := by
    simp [Message.bytes, wordBytes]
  have head : m.bytes.take (m.bytes.length - 2) = m.head := by rw [check, Message.bytes, List.take_left]
  have last : m.bytes.drop (m.bytes.length - 2) = wordBytes (crc16 m.head) := by
    rw [check, Message.bytes, List.drop_left]
  simp only [rowOfBytes, head, last, least, most, decide_true, Bool.and_self, if_true, rowOfHeard_head h]

theorem rowOfLine_lineBits {m : Message} (h : m.wellFormed = true) (own n : Nat) :
    rowOfLine own n (lineBits m.bytes) = rowAt own n m := by
  rw [rowOfLine, deframe_lineBits]
  exact rowOfBytes_bytes h own n

/-! ## The receiver (R18) -/

/-- The receiver between two bytes of an activity whose levels so far are `levels`. -/
def betweenBytes (levels : List Bool) : Reception := { levels, place := 0, lost := false, quiet := 0 }

/-- After the start bit, the data bits and the stop bit of a byte bring the receiver to its end. -/
theorem receive_afterStart (own n : Nat) (levels : List Bool) (b : Byte) (rest : List Bool) :
    receive own n (some { levels := levels ++ [false], place := 1, lost := false, quiet := 0 }) (bitsOfByte b ++ [true] ++ rest)
      = receive own n (some (betweenBytes (levels ++ lineByte b))) rest := by
  simp [bitsOfByte, lineByte, betweenBytes, receive, Reception.next, quietBits]

theorem receive_byte (own n : Nat) (levels : List Bool) (b : Byte) (rest : List Bool) :
    receive own n (some (betweenBytes levels)) (lineByte b ++ rest)
      = receive own n (some (betweenBytes (levels ++ lineByte b))) rest := by
  rw [← receive_afterStart]
  simp [lineByte, betweenBytes, receive, Reception.next, quietBits]

theorem receive_bytes (own n : Nat) (levels : List Bool) (bytes : List Byte) (rest : List Bool) :
    receive own n (some (betweenBytes levels)) (lineBits bytes ++ rest)
      = receive own n (some (betweenBytes (levels ++ lineBits bytes))) rest := by
  induction bytes generalizing levels with
  | nil => simp [lineBits]
  | cons b bytes ih => rw [lineBits_cons, List.append_assoc, receive_byte, ih, List.append_assoc]

/-- Ten recessive bit times end the activity (R18). -/
theorem receive_quiet (own n : Nat) (levels : List Bool) :
    receive own n (some (betweenBytes levels)) (.replicate 10 true) = [rowOfLine own n levels] := by
  simp [List.replicate, betweenBytes, receive, Reception.next, Reception.row, quietBits]

/-- The bytes of a message and ten recessive bit times are one activity, with the row of its levels. -/
theorem receive_message (own n : Nat) {bytes : List Byte} (h : bytes ≠ []) :
    receive own n none (lineBits bytes ++ .replicate 10 true) = [.activityBegin, rowOfLine own n (lineBits bytes)] := by
  cases bytes with
  | nil => exact absurd rfl h
  | cons b bytes =>
      have begun : receive own n none (lineBits (b :: bytes) ++ .replicate 10 true)
          = .activityBegin :: receive own n (some { levels := [] ++ [false], place := 1, lost := false, quiet := 0 })
              (bitsOfByte b ++ [true] ++ (lineBits bytes ++ .replicate 10 true)) := by
        simp [lineBits_cons, lineByte, receive]
      rw [begun, receive_afterStart, receive_bytes, receive_quiet, List.nil_append, ← lineBits_cons]

/-! ## Readback and arbitration (R35, R36) -/

theorem firstMismatch_take (driven : List Bool) (n : Nat) : firstMismatch driven (driven.take n) = none := by
  induction driven generalizing n with
  | nil => rfl
  | cons d driven ih =>
      cases n with
      | zero => rfl
      | succ n => simp [firstMismatch, ih]

/-- Read back with the bit in place `n` turned over, the mismatch is found there. -/
theorem firstMismatch_flipped (driven : List Bool) {n : Nat} (h : n < driven.length) :
    firstMismatch driven (driven.take n ++ [!(driven.getD n true)]) = some n := by
  induction driven generalizing n with
  | nil => cases h
  | cons d driven ih =>
      cases n with
      | zero => simp [firstMismatch]
      | succ n =>
          have := ih (Nat.lt_of_succ_lt_succ h)
          simpa [firstMismatch] using this

/-- R36: of two messages alike up to place `n`, the one that is recessive there reads back another level, the other does
not. -/
theorem firstMismatch_lineAnd {a b : List Bool} {n : Nat} (alike : a.take n = b.take n) (ha : a[n]? = some true)
    (hb : b[n]? = some false) :
    firstMismatch a ((lineAnd a b).take (n + 1)) = some n ∧ firstMismatch b ((lineAnd a b).take (n + 1)) = none := by
  induction n generalizing a b with
  | zero =>
      cases a with
      | nil => cases ha
      | cons x a =>
          cases b with
          | nil => cases hb
          | cons y b =>
              cases ha
              cases hb
              simp [lineAnd, firstMismatch]
  | succ n ih =>
      cases a with
      | nil => cases ha
      | cons x a =>
          cases b with
          | nil => cases hb
          | cons y b =>
              simp only [List.take_succ_cons, List.cons.injEq] at alike
              obtain ⟨rfl, alike⟩ := alike
              have := ih alike (by simpa using ha) (by simpa using hb)
              simpa [lineAnd, firstMismatch] using this

/-! ## After the own end, and in an abandoned activity (R18, R24, R35) -/

/-- A line that stays recessive makes no row. -/
theorem receive_idle (own n k : Nat) : receive own n none (.replicate k true) = [] := by
  induction k with
  | zero => rfl
  | succ k ih => simpa [List.replicate_succ, receive] using ih

theorem receiveAfterEnd_idle (own n quiet k : Nat) : receiveAfterEnd own n quiet (.replicate k true) = [] := by
  induction k generalizing quiet with
  | zero => rfl
  | succ k ih =>
      rw [List.replicate_succ, receiveAfterEnd]
      split
      · exact ih (quiet + 1)
      · exact receive_idle own n k

/-- Once the bytes are lost they stay lost, and the row is that of a bad check. -/
theorem next_lost {r : Reception} (h : r.lost = true) (level : Bool) : (r.next level).lost = true := by
  cases level <;> simp [Reception.next, h]

theorem row_lost {r : Reception} (h : r.lost = true) (own n quiet : Nat) : r.row own n quiet = .badCheckActivity := by
  rw [Reception.row, if_pos h]

/-- The first row of an activity whose bytes are lost, if it has one, is that of its end, with a bad check. -/
theorem receive_lost_head (own n : Nat) {r : Reception} (h : r.lost = true) (levels : List Bool) :
    (receive own n (some r) levels).head?.getD .badCheckActivity = .badCheckActivity := by
  induction levels generalizing r with
  | nil => rfl
  | cons level levels ih =>
      simp only [receive]
      split
      · exact ih (next_lost h level)
      · exact row_lost (next_lost h level) own n _

theorem next_lost_quiet {r : Reception} (h : r.lost = true) : (r.next true).quiet = r.quiet + 1 := by
  simp [Reception.next, h]

/-- With as many recessive bit times as are lacking, an activity whose bytes are lost ends. -/
theorem receive_lost_quiet (own n k : Nat) {r : Reception} (h : r.lost = true) (enough : quietBits ≤ r.quiet + k)
    (more : 0 < k) : (receive own n (some r) (.replicate k true)).head? = some .badCheckActivity := by
  induction k generalizing r with
  | zero => cases more
  | succ k ih =>
      rw [List.replicate_succ]
      simp only [receive]
      split
      · have quiet : (r.next true).quiet < quietBits := ‹_›
        rw [next_lost_quiet h] at quiet
        exact ih (next_lost h true) (by rw [next_lost_quiet h]; omega) (by omega)
      · exact congrArg some (row_lost (next_lost h true) own n _)

theorem receive_lost_ends (own n : Nat) {r : Reception} (h : r.lost = true) (levels : List Bool) :
    (receive own n (some r) (levels ++ .replicate 10 true)).head? = some .badCheckActivity := by
  induction levels generalizing r with
  | nil => exact receive_lost_quiet own n 10 h (Nat.le_add_left _ _) (by omega)
  | cons level levels ih =>
      rw [List.cons_append]
      simp only [receive]
      split
      · exact ih (next_lost h level)
      · exact congrArg some (row_lost (next_lost h level) own n _)

/-! ## What the station drives (R17) -/

theorem driven_of_transmitting {s : State} {x : Transmission} (hx : s.bus.transmit = some x) :
    s.driven = lineBits x.message.bytes := by
  simp [State.driven, hx]

theorem txen_of_transmitting {s : State} {x : Transmission} (hx : s.bus.transmit = some x) : s.txen = true := by
  simp [State.txen, hx]

/-- Settles O23: framing, check and fields are inverse to the receiver's; readback finds the first bit that differs. -/
theorem messagesReadBackFromTheLine : Obligations.MessagesReadBackFromTheLine := by
  unfold Obligations.MessagesReadBackFromTheLine
  refine ⟨fun own n m h => ?_, fun s => ⟨fun quiet => ?_, fun x hx => ?_⟩, fun a b n _ _ alike ha hb =>
    firstMismatch_lineAnd alike ha hb, fun s r listening => ⟨fun p k idle warm => ?_, fun abandoned levels => ?_⟩⟩
  · have bytes : m.bytes ≠ [] := by
      intro e
      have := (length_bytes (length_payload_le h)).1
      rw [e] at this
      cases this
    exact ⟨rowOfLine_lineBits h own n, (receive_message own n bytes).trans (by rw [rowOfLine_lineBits h]; rfl)⟩
  · exact ⟨by simp [State.txen, quiet], fun n => by simp [State.txd, State.driven, quiet]⟩
  · have driven := driven_of_transmitting hx
    have txen := txen_of_transmitting hx
    refine ⟨length_lineBits _, txen, fun n => by rw [State.txd, driven], ?_, fun n hn => ⟨?_, ?_⟩⟩
    · have same := firstMismatch_take (lineBits x.message.bytes) (lineBits x.message.bytes).length
      rw [List.take_length] at same
      simp [State.readback, txen, driven, same]
    · simp [State.readback, txen, driven, firstMismatch_take, hn]
    · simp only [State.readback, txen, driven, firstMismatch_flipped _ hn, if_true]
  · simp only [State.rowsHeard, listening, idle, warm, if_true]
    split
    · exact receive_idle _ _ k
    · exact receiveAfterEnd_idle _ _ _ k
  · simp only [State.rowsHeard, listening, abandoned, if_true]
    exact ⟨receive_lost_head _ _ rfl levels, receive_lost_ends _ _ rfl levels⟩

end Sys2Proof.PeerBus
end

section
/-! SUPPORT. Medium access (R26 to R29): the owner of a bus slot, and the moments at which the station sends. -/
namespace Sys2Proof.PeerBus

open Sys2Proof Sys2Proof.Machine Sys2Proof.Safety

-- Each thread of the elaborator reserves 1 GB under the memory limit of the check.
set_option Elab.async false

/-! ## Owners of bus slots (R26) -/

/-- The position of a station after the last source, in natural numbers. -/
theorem slotPosition_eq {own last n : Nat} (h : last < n) : slotPosition own last n = (own + n - last - 1) % n := by
  have shifted : (own : Int) - last - 1 = ((own + n - last - 1 : Nat) : Int) - n := by omega
  rw [slotPosition, shifted, Int.sub_emod_right]
  exact Int.toNat_natCast _

/-- The position is counted on from the number after the last source, and around the group. -/
theorem position_of_lt {i last n : Nat} (hi : i < n) (hl : last < n) :
    (i + n - last - 1) % n = if last < i then i - last - 1 else i + n - last - 1 := by
  split
  · rw [show i + n - last - 1 = i - last - 1 + n by omega, Nat.add_mod_right, Nat.mod_eq_of_lt (by omega)]
  · exact Nat.mod_eq_of_lt (by omega)

/-- The position that owns bus slot `k`: in the reply window, in the request window, and after both. -/
def slotOwner (n k : Nat) : Nat := if k < n then k else if k < 2 * n then k - n else (k - 2 * n) % n

theorem slotOwner_lt {n : Nat} (k : Nat) (h : 0 < n) : slotOwner n k < n := by
  unfold slotOwner
  split
  · assumption
  split
  · omega
  · exact Nat.mod_lt _ h

theorem ownsSlot_iff (own last n k : Nat) : ownsSlot own last n k = true ↔ slotPosition own last n = slotOwner n k := by
  unfold ownsSlot slotOwner
  split
  · exact decide_eq_true_iff
  split <;> exact decide_eq_true_iff

/-- Each position is that of one number of the group. -/
theorem exists_unique_position {last n r : Nat} (hl : last < n) (hr : r < n) :
    ∃ own, own < n ∧ (own + n - last - 1) % n = r ∧ ∀ i, i < n → (i + n - last - 1) % n = r → i = own := by
  have unique (own : Nat) (ho : own < n) (h : (own + n - last - 1) % n = r) (i : Nat) (hi : i < n)
      (hir : (i + n - last - 1) % n = r) : i = own := by
    rw [position_of_lt ho hl] at h
    rw [position_of_lt hi hl] at hir
    split at h <;> split at hir <;> omega
  by_cases wrap : r + last + 1 < n
  · have h : (r + last + 1 + n - last - 1) % n = r := by rw [position_of_lt wrap hl, if_pos (by omega)]; omega
    exact ⟨_, wrap, h, unique _ wrap h⟩
  · have small : r + last + 1 - n < n := by omega
    have h : (r + last + 1 - n + n - last - 1) % n = r := by rw [position_of_lt small hl, if_neg (by omega)]; omega
    exact ⟨_, small, h, unique _ small h⟩

/-! ## The moments at which the station sends (R26, R27, R29) -/

/-- The transmitter is on, nothing is in the transmit buffer and the line is idle. -/
theorem mayTransmit_iff (s : State) : s.mayTransmit = true ↔
    (s.station.state = some .joining ∨ s.station.state = some .online ∨ s.station.state = some .leaving) ∧
      s.bus.transmit = none ∧ s.bus.line = .idle := by
  simp only [State.mayTransmit, State.transmitterOn, State.receiverOn, State.inState, Bool.and_eq_true, Bool.or_eq_true,
    decide_eq_true_eq, Option.isNone_iff_eq_none, or_assoc, and_assoc]

theorem busSlotStart_warm {s : State} {last : Station} (h : s.bus.slotRef = .warm last) (k : Nat) :
    exec (.busSlotStart k) s = .next (if s.mayTransmit = true ∧ s.bus.slotClock ≤ k ∧
      ownsSlot s.own last.val s.stationCount k = true then (s.countTo (k + 1)).send (k < s.stationCount) else s) := by
  simp only [exec, execBusSlotStart, h, Bool.and_eq_true, decide_eq_true_eq, Nat.lt_succ_iff, and_assoc]

theorem busSlotStart_cold {s : State} (h : s.bus.slotRef = .cold) (k : Nat) : exec (.busSlotStart k) s = .next s := by
  simp only [exec, execBusSlotStart, h]

theorem coldGuardExpiry_warm {s : State} {last : Station} (h : s.bus.slotRef = .warm last) (m : Nat) :
    exec (.coldGuardExpiry m) s = .next s := by
  simp only [exec, execColdGuardExpiry, h]

theorem coldGuardExpiry_cold {s : State} (h : s.bus.slotRef = .cold) (m : Nat) :
    exec (.coldGuardExpiry m) s = .next (if s.mayTransmit = true ∧ s.bus.slotClock < m ∧
      s.coldGuard ≤ m then (s.countTo m).send false else s) := by
  simp only [exec, execColdGuardExpiry, h, Bool.and_eq_true, decide_eq_true_eq, and_assoc]

/-- Settles O38: the owner of a slot is the one number at its position, and the meanings test just these moments. -/
theorem busSlotsAndColdGuards : Obligations.BusSlotsAndColdGuards := by
  unfold Obligations.BusSlotsAndColdGuards
  refine ⟨fun n last k hn hl => ?_, fun s _ => ?_⟩
  · obtain ⟨own, lt, position, unique⟩ := exists_unique_position hl (slotOwner_lt k (by omega : 0 < n))
    refine ⟨own, lt, ?_, fun i hi owns => unique i hi ?_⟩
    · rwa [ownsSlot_iff, slotPosition_eq hl]
    · rwa [ownsSlot_iff, slotPosition_eq hl] at owns
  intro n idle
  have idle_iff : s.mayTransmit = true ↔ idle := mayTransmit_iff s
  refine ⟨fun last k warm hl => ?_, fun cold m => ⟨fun hi hc hg => ?_, fun hno => ?_, busSlotStart_cold cold m⟩⟩
  · intro p owned
    have owned_iff : ownsSlot s.own last.val n k = true ↔ owned := by
      rw [ownsSlot_iff, slotPosition_eq hl]
      change p = slotOwner n k ↔ k < n ∧ p = k ∨ n ≤ k ∧ k < 2 * n ∧ p + n = k ∨ 2 * n ≤ k ∧ p = (k - 2 * n) % n
      unfold slotOwner
      split
      · omega
      split
      · omega
      · omega
    refine ⟨fun hi hc ho => ?_, fun hno => ?_, coldGuardExpiry_warm warm k⟩
    · rw [busSlotStart_warm warm, if_pos ⟨idle_iff.2 hi, hc, owned_iff.2 ho⟩]
      rfl
    · rw [busSlotStart_warm warm, if_neg fun h => hno ⟨idle_iff.1 h.1, h.2.1, owned_iff.1 h.2.2⟩]
  · rw [coldGuardExpiry_cold cold, if_pos ⟨idle_iff.2 hi, hc, hg⟩]
    rfl
  · rw [coldGuardExpiry_cold cold, if_neg fun h => hno ⟨idle_iff.1 h.1, h.2.1, h.2.2⟩]

end Sys2Proof.PeerBus
end

section
/-! SUPPORT. What a transmission takes and how its message is filled (R20, R29, R135), and the low-water (R134). -/
namespace Sys2Proof.PeerBus

open Sys2Proof Sys2Proof.Machine Sys2Proof.Safety

-- Each thread of the elaborator reserves 1 GB under the memory limit of the check.
set_option Elab.async false

/-! ## The queue a transmission takes from (R29) -/

theorem send_reply {s : State} {r : QueuedReply} {rest : List QueuedReply} (h : s.bus.replyQueue = r :: rest)
    (only : Bool) : s.send only =
      State.transmitNow { s with bus := { s.bus with replyQueue := rest } } (.reply r) (s.fillReply r) := by
  simp only [State.send, h]

theorem send_only_replies {s : State} (h : s.bus.replyQueue = []) : s.send true = s := by
  simp only [State.send, h, if_true]

theorem send_control {s : State} {c : Control} {rest : List Control} (noReply : s.bus.replyQueue = [])
    (h : s.bus.controlQueue = c :: rest) : s.send false =
      State.transmitNow { s with bus := { s.bus with controlQueue := rest } } (.control c) (s.fillControl c) := by
  simp only [State.send, noReply, h, Bool.false_eq_true, if_false]

theorem send_request {s : State} (noReply : s.bus.replyQueue = []) (noControl : s.bus.controlQueue = []) :
    s.send false = s.sendRequest := by
  simp only [State.send, noReply, noControl, Bool.false_eq_true, if_false]

theorem sendRequest_empty {s : State} (h : s.bus.requestQueue = []) : s.sendRequest = s := by
  simp only [State.sendRequest, h]

theorem sendRequest_entry {s : State} {t : Tag} {rest : List Tag} {e : Entry} (h : s.bus.requestQueue = t :: rest)
    (entry : s.entry t = some e) : s.sendRequest =
      State.transmitNow (State.setEntry { s with bus := { s.bus with requestQueue := rest } } t
        (some { e with inTransmission := true })) (.request t) (s.fillRequest t e) := by
  simp only [State.sendRequest, h, entry]

/-! ## The message (R20) -/

theorem withHeader_eq {s : State} {inc : Byte} (h : s.station.incarnation = some inc) (dest : Byte) (body : Body) :
    s.withHeader dest body = { dest, source := s.latch.bytes.stationNumber, inc, body } := by
  rw [State.withHeader, h, Option.getD_some]

/-! ## The low-water (R134) -/

theorem sub_ofNat_seqAge (next q : Byte) : next - BitVec.ofNat 8 (seqAge next q) = q := by
  rw [seqAge, BitVec.ofNat_toNat, BitVec.setWidth_eq, sub_sub_cancel]

/-- The oldest age is absent just when nothing is carried. -/
theorem oldestAge_eq_none_iff (next : Byte) (used : List Byte) : oldestAge next used = none ↔ used = [] := by
  cases used with
  | nil => exact iff_of_true rfl rfl
  | cons q rest =>
    rw [oldestAge]
    cases oldestAge next rest <;> simp

/-- The oldest age is the age of a carried sequence, and no carried sequence is older. -/
theorem oldestAge_is_greatest {next : Byte} {used : List Byte} {a : Nat} (h : oldestAge next used = some a) :
    ∃ oldest ∈ used, seqAge next oldest = a ∧ ∀ q ∈ used, seqAge next q ≤ a := by
  induction used generalizing a with
  | nil => cases h
  | cons q rest ih =>
    rw [oldestAge] at h
    cases older : oldestAge next rest with
    | none =>
      rw [older] at h
      cases h
      rw [(oldestAge_eq_none_iff next rest).1 older]
      exact ⟨q, List.mem_singleton_self q, rfl, fun r hr => by rw [List.mem_singleton.1 hr]⟩
    | some b =>
      obtain ⟨oldest, carried, age, greatest⟩ := ih older
      rw [older] at h
      cases h
      have among : ∀ r ∈ q :: rest, seqAge next r ≤ max b (seqAge next q) := by
        intro r hr
        rcases List.mem_cons.1 hr with rfl | hr
        · exact Nat.le_max_right _ _
        · exact (greatest r hr).trans (Nat.le_max_left _ _)
      rcases Nat.le_total b (seqAge next q) with younger | younger
      · exact ⟨q, List.mem_cons_self, (Nat.max_eq_right younger).symm, among⟩
      · exact ⟨oldest, List.mem_cons_of_mem _ carried, by rw [age, Nat.max_eq_left younger], among⟩

theorem lowWater_none {s : State} {p : Station} (h : s.carried p = []) : s.lowWater p = (s.peer p).nextSeq := by
  simp only [State.lowWater, (oldestAge_eq_none_iff _ _).2 h]

/-- The low-water is the oldest carried sequence, held at 128 behind the next. -/
theorem lowWater_oldest {s : State} {p : Station} (h : s.carried p ≠ []) :
    ∃ oldest ∈ s.carried p,
      (∀ q ∈ s.carried p, seqAge (s.peer p).nextSeq q ≤ seqAge (s.peer p).nextSeq oldest) ∧
      s.lowWater p = if seqAge (s.peer p).nextSeq oldest ≤ 128 then oldest else (s.peer p).nextSeq - 128#8 := by
  obtain ⟨a, ha⟩ := Option.ne_none_iff_exists'.1 ((oldestAge_eq_none_iff (s.peer p).nextSeq (s.carried p)).not.2 h)
  obtain ⟨oldest, carried, rfl, greatest⟩ := oldestAge_is_greatest ha
  refine ⟨oldest, carried, greatest, ?_⟩
  simp only [State.lowWater, ha]
  split
  case isTrue near => rw [Nat.min_eq_left near, sub_ofNat_seqAge]
  case isFalse far => rw [Nat.min_eq_right (Nat.le_of_not_le far)]

/-- Settles O39: each queue by the equation of `send` that takes from it, and the low-water by the greatest age. -/
theorem sendTakesOneMessage : Obligations.SendTakesOneMessage := by
  unfold Obligations.SendTakesOneMessage
  refine ⟨fun s only inc hinc => ?_, fun s p => ⟨lowWater_none, lowWater_oldest⟩⟩
  refine ⟨fun r rest h => ?_, fun noReply ho => ?_, fun noReply ho => ⟨fun c rest h => ?_, fun noControl h => ?_,
    fun t rest e seq noControl h entry carries => ?_⟩⟩
  · rw [send_reply h, State.fillReply, withHeader_eq hinc]
    cases r.kind <;> rfl
  · rw [ho, send_only_replies noReply]
  · rw [ho, send_control noReply h]
    cases c <;> rw [State.fillControl, withHeader_eq hinc] <;> rfl
  · rw [ho, send_request noReply noControl, sendRequest_empty h]
  · rw [ho, send_request noReply noControl, sendRequest_entry h entry, State.fillRequest, withHeader_eq hinc, carries]
    cases e.kind <;> rfl

end Sys2Proof.PeerBus
end

section
/-! SUPPORT. The credit wait lists served: the fresh sequence (R133), credit handing (R54), asking and its timer (R31, R56, R57). -/
namespace Sys2Proof.PeerBus

open Sys2Proof Sys2Proof.Machine Sys2Proof.Safety

-- Each thread of the elaborator reserves 1 GB under the memory limit of the check.
set_option Elab.async false

/-! ## The fresh sequence (R133) -/

theorem mem_carried_iff (s : State) (p : Station) (v : Byte) :
    v ∈ s.carried p ↔ ∃ u f, s.entry u = some f ∧ f.peer = p ∧ f.seq = some v := by
  rw [State.carried, List.mem_filterMap]
  refine exists_congr fun u => ?_
  rw [and_iff_right (mem_allTags u)]
  cases s.entry u with
  | none => simp
  | some e => by_cases h : e.peer = p <;> simp [h]

/-- An entry without a sequence leaves at most fifteen carried. -/
theorem length_carried_le {s : State} {t : Tag} {e : Entry} (entry : s.entry t = some e) (h : e.seq = none)
    (p : Station) : (s.carried p).length ≤ 15 := by
  have fewer : (s.carried p).length < allTags.length :=
    List.length_filterMap_lt_length_iff_exists.2 ⟨t, mem_allTags t, by simp [entry, h]⟩
  exact Nat.le_of_lt_succ fewer

/-- The search passes over values in use, and stops at one that is not, unless its fuel runs out. -/
theorem freshSeq_spec (used : List Byte) (fuel : Nat) (next : Byte) :
    ∃ k ≤ fuel, freshSeq used fuel next = next + BitVec.ofNat 8 k ∧ (∀ j < k, next + BitVec.ofNat 8 j ∈ used) ∧
      (k < fuel → next + BitVec.ofNat 8 k ∉ used) := by
  induction fuel generalizing next with
  | zero => exact ⟨0, le_rfl, (BitVec.add_zero next).symm, by simp, by simp⟩
  | succ fuel ih =>
    have shift (j : Nat) : next + 1#8 + BitVec.ofNat 8 j = next + BitVec.ofNat 8 (j + 1) := by
      rw [BitVec.ofNat_add, BitVec.add_assoc, BitVec.add_comm 1#8]
    rw [freshSeq]
    split
    case isTrue taken =>
      obtain ⟨k, hk, value, passed, free⟩ := ih (next + 1#8)
      rw [shift] at value free
      refine ⟨k + 1, Nat.succ_le_succ hk, value, fun j hj => ?_, fun h => free (Nat.lt_of_succ_lt_succ h)⟩
      cases j with
      | zero => rw [BitVec.add_zero]; exact List.contains_iff_mem.1 taken
      | succ j => rw [← shift]; exact passed j (Nat.lt_of_succ_lt_succ hj)
    case isFalse free =>
      refine ⟨0, Nat.zero_le _, (BitVec.add_zero next).symm, by simp, fun _ h => free ?_⟩
      rw [BitVec.add_zero] at h
      exact List.contains_iff_mem.2 h

/-- Sequences in use that follow each other are no more than the sequences in use. -/
theorem length_ge_of_run {used : List Byte} {next : Byte} {k : Nat} (small : k ≤ 256)
    (h : ∀ j < k, next + BitVec.ofNat 8 j ∈ used) : k ≤ used.length := by
  have distinct : ((List.range k).map fun j => next + BitVec.ofNat 8 j).Nodup := by
    refine List.Nodup.map_on (fun i hi j hj same => ?_) List.nodup_range
    have := List.mem_range.1 hi
    have := List.mem_range.1 hj
    have values := congrArg BitVec.toNat (add_left_cancel same)
    rwa [BitVec.toNat_ofNat, BitVec.toNat_ofNat, Nat.mod_eq_of_lt (by omega), Nat.mod_eq_of_lt (by omega)] at values
  have inUse : ((List.range k).map fun j => next + BitVec.ofNat 8 j) ⊆ used := by
    intro v hv
    obtain ⟨j, hj, rfl⟩ := List.mem_map.1 hv
    exact h j (List.mem_range.1 hj)
  simpa using (distinct.subperm inUse).length_le

/-- With an entry still without a sequence, sixteen values hold a free one: the sequence taken is the first (R133). -/
theorem takeSeq_first_free {s : State} {t : Tag} {e : Entry} (entry : s.entry t = some e) (h : e.seq = none)
    (p : Station) : ∃ k ≤ 15, s.takeSeq p = (s.peer p).nextSeq + BitVec.ofNat 8 k ∧ s.takeSeq p ∉ s.carried p ∧
      ∀ j < k, (s.peer p).nextSeq + BitVec.ofNat 8 j ∈ s.carried p := by
  obtain ⟨k, hk, value, passed, free⟩ := freshSeq_spec (s.carried p) 16 (s.peer p).nextSeq
  have k_le : k ≤ 15 := (length_ge_of_run (by omega) passed).trans (length_carried_le entry h p)
  rw [← State.takeSeq] at value
  exact ⟨k, k_le, value, value ▸ free (by omega), passed⟩

/-- What is carried, some other entry carries, where `t` has no sequence. -/
theorem mem_carried_iff_another {s : State} {t : Tag} {e : Entry} (entry : s.entry t = some e) (h : e.seq = none)
    (p : Station) (v : Byte) :
    v ∈ s.carried p ↔ ∃ u f, u ≠ t ∧ s.entry u = some f ∧ f.peer = p ∧ f.seq = some v := by
  rw [mem_carried_iff]
  refine exists_congr fun u => exists_congr fun f => ⟨fun hf => ⟨?_, hf⟩, fun hf => hf.2⟩
  rintro rfl
  obtain ⟨same, -, seq⟩ := hf
  rw [entry, Option.some.injEq] at same
  rw [← same, h] at seq
  cases seq

/-! ## Credit handing (R54) -/

/-- The head of the wait list of `p` with its entry, where a credit is held. -/
structure HandsTo (s : State) (p : Station) (t : Tag) (rest : List Tag) (e : Entry) : Prop where
  waits : (s.peer p).waitList = t :: rest
  holds : 1 ≤ (s.peer p).held
  entry : s.entry t = some e
  waiting : e.state = .waitingCredit
  toPeer : e.peer = p

/-- Entry `t` enters QUEUED with `seq`, its request queued, the peer entry then being `q`. -/
def queuedWith (s : State) (p : Station) (t : Tag) (e : Entry) (q : PeerEntry) (seq : Byte) : State :=
  ((s.setPeer p q).setEntry t
    (some { e with state := .queued, inTransmission := false, seq := some seq })).queueRequest t

theorem creditHanding_again {s : State} {p : Station} {t : Tag} {rest : List Tag} {e : Entry} {seq : Byte}
    (h : HandsTo s p t rest e) (carries : e.seq = some seq) : s.creditHanding p =
      some (queuedWith s p t e { s.peer p with held := (s.peer p).held - 1, waitList := rest } seq) := by
  have held : (s.peer p).held ≠ 0 := Nat.pos_iff_ne_zero.1 h.holds
  simp only [State.creditHanding, queuedWith, h.waits, held, h.entry, h.waiting, h.toPeer, carries, decide_true,
    Bool.and_self, if_true, if_false]

theorem creditHanding_first {s : State} {p : Station} {t : Tag} {rest : List Tag} {e : Entry}
    (h : HandsTo s p t rest e) (carries : e.seq = none) : s.creditHanding p =
      some (queuedWith s p t e { s.peer p with
        held := (s.peer p).held - 1, waitList := rest, nextSeq := s.takeSeq p + 1#8 } (s.takeSeq p)) := by
  have held : (s.peer p).held ≠ 0 := Nat.pos_iff_ne_zero.1 h.holds
  simp only [State.creditHanding, queuedWith, h.waits, held, h.entry, h.waiting, h.toPeer, carries, decide_true,
    Bool.and_self, if_true, if_false]

theorem exec_creditHanding {s u : State} {p : Station} (h : s.creditHanding p = some u) :
    exec (.creditHanding p) s = .next u.settle := by
  rw [exec, execCreditHanding, State.ownRow, h, Option.getD_some]

/-! ## Asking (R31, R56, R57) -/

theorem coalesce_ask_new {q : List Control} {p : Station} (h : ∀ y ∈ q, y.isAskTo p = false) (wanted : Nat) :
    coalesce q (.ask p wanted) = q ++ [.ask p wanted] := by
  rw [coalesce, if_neg (by simpa using h)]

/-- The waiting ASK takes the new wanted count where it stands. -/
theorem coalesce_ask_waiting {before after : List Control} {p : Station}
    (h : ∀ y ∈ before ++ after, y.isAskTo p = false) (n wanted : Nat) :
    coalesce (before ++ .ask p n :: after) (.ask p wanted) = before ++ .ask p wanted :: after := by
  have self : Control.isAskTo p (.ask p n) = true := decide_eq_true rfl
  have kept (l : List Control) (hl : ∀ y ∈ l, y.isAskTo p = false) :
      (l.map fun c => if c.isAskTo p then .ask p wanted else c) = l :=
    (List.map_congr_left fun y hy => if_neg (by simp [hl y hy])).trans (List.map_id l)
  rw [coalesce, if_pos (by simp [self]), List.map_append, List.map_cons, if_pos self,
    kept before fun y hy => h y (List.mem_append_left after hy),
    kept after fun y hy => h y (List.mem_append_right before hy)]

/-- The state after an ASK to `p` that leaves the control queue as `queue`. -/
def askedWith (s : State) (p : Station) (queue : List Control) : State :=
  { s.setPeer p { s.peer p with asked := true, askTimer := .running s.replyTimeout } with
    bus := { s.bus with controlQueue := queue } }

theorem ask_eq (s : State) (p : Station) :
    s.ask p = askedWith s p (coalesce s.bus.controlQueue (.ask p (s.wanted p))) := rfl

theorem exec_asking {s : State} {p : Station} (waits : (s.peer p).waitList ≠ []) (held : (s.peer p).held = 0)
    (asked : (s.peer p).asked = false) : exec (.asking p) s = .next (s.ask p).settle := by
  rw [exec, execAsking, State.ownRow, State.asking, if_pos ⟨waits, held, asked⟩, Option.getD_some]

theorem exec_askTimerExpiry_ask {s : State} {p : Station} {ms : Nat} (timer : (s.peer p).askTimer = .running ms)
    (asked : (s.peer p).asked = true) (waits : (s.peer p).waitList ≠ []) :
    exec (.askTimerExpiry p) s = .next (s.ask p).settle := by
  simp only [exec, execAskTimerExpiry, timer, Timer.isRunning, asked, if_true,
    (List.isEmpty_eq_false_iff).2 waits, Bool.not_false, Bool.and_self]

theorem exec_askTimerExpiry_end {s : State} {p : Station} {ms : Nat} (timer : (s.peer p).askTimer = .running ms)
    (waits : (s.peer p).waitList = []) : exec (.askTimerExpiry p) s =
      .next (s.setPeer p { s.peer p with asked := false, askTimer := .stopped }).settle := by
  simp only [exec, execAskTimerExpiry, timer, Timer.isRunning, waits, List.isEmpty_nil, Bool.not_true, Bool.and_false,
    Bool.false_eq_true, if_true, if_false, State.modPeer]

/-- Settles O31: handing by the state of the head entry, and both ways to ask by what coalescing makes of the ASK. -/
theorem creditWaitListsAreServed : Obligations.CreditWaitListsAreServed := by
  unfold Obligations.CreditWaitListsAreServed
  refine ⟨fun s p t rest e waits holds entry waiting toPeer => ?_, fun s p => ?_⟩
  · have hands : HandsTo s p t rest e := ⟨waits, holds, entry, waiting, toPeer⟩
    refine ⟨fun seq carries => exec_creditHanding (creditHanding_again hands carries),
      fun carries => ⟨exec_creditHanding (creditHanding_first hands carries), ?_⟩⟩
    obtain ⟨k, hk, value, free, passed⟩ := takeSeq_first_free entry carries p
    have another := mem_carried_iff_another entry carries p
    exact ⟨k, hk, value, fun h => free ((another _).2 h), fun j hj => (another _).1 (passed j hj)⟩
  · intro q wanted asked asks
    have asks_of (c : Instr) (h : exec c s = .next (s.ask p).settle) : asks c := by
      rw [ask_eq] at h
      refine ⟨fun new => ?_, fun before after n queue others => ?_⟩
      · rw [h, coalesce_ask_new new]
        rfl
      · rw [h, queue, coalesce_ask_waiting others]
        rfl
    exact ⟨fun waits held asked => asks_of _ (exec_asking waits held asked), fun ms timer =>
      ⟨fun asked waits => asks_of _ (exec_askTimerExpiry_ask timer asked waits), exec_askTimerExpiry_end timer⟩⟩

end Sys2Proof.PeerBus
end

section
/-! SUPPORT. The views that READ WINDOW, READ WATCH, READ PEER CHANGES and READ PEER leave (R49, R70, R87, R176 to R179). -/
namespace Sys2Proof.HostViews

open Sys2Proof Sys2Proof.Machine Sys2Proof.Safety

-- Each thread of the elaborator reserves 1 GB under the memory limit of the check.
set_option Elab.async false

variable {s : State} {op : Byte}

/-! ## Fields of a view word -/

theorem bit_le_one (b : Bool) : bit b ≤ 1 := by cases b <;> decide

/-- A register word holds the sum of its fields, each at its place, if that fits. -/
theorem toNat_packWord {fields : List (Nat × Nat)} {n : Nat} (fits : n < 65536)
    (sum : (fields.map fun f => f.2 * 2 ^ f.1).sum = n := by
      simp only [List.map_cons, List.map_nil, List.sum_cons, List.sum_nil]; omega) : (packWord fields).toNat = n := by
  rw [packWord, sum, BitVec.toNat_ofNat, Nat.mod_eq_of_lt fits]

/-- A number of 24 bits shown in a view word and in the low byte of the next. -/
theorem lowWord_packWord {n : Nat} (h : n ≤ 0xFFFFFF) :
    (lowWord n).toNat + 65536 * (packWord [(0, n / 65536)]).toNat = n := by
  rw [toNat_packWord (fields := [(0, n / 65536)]) (n := n / 65536) (by omega), lowWord, BitVec.toNat_ofNat]
  omega

/-- The codes that the views show fit their fields. -/
theorem peerState_code_le (x : PeerState) : x.code ≤ 2 := by cases x <;> simp [PeerState.code]

theorem replyStatus_code_le (x : ReplyStatus) : x.code ≤ 4 := by cases x <;> decide

theorem rights_code_le (x : Rights) : x.code ≤ 3 := by cases x <;> decide

/-! ## Operands -/

theorem windowOperand_above (h : 8 ≤ op.toNat) : windowOperand op = none := by
  rw [windowOperand, dif_neg (by omega)]

theorem windowOperand_eq {w : WindowNo} (h : w.val = op.toNat) : windowOperand op = some w := by
  rw [windowOperand, dif_pos (by omega)]
  exact congrArg some (Fin.ext h.symm)

theorem stationOperand_above (h : 16 ≤ op.toNat) : stationOperand op = none := by
  rw [stationOperand, dif_neg (by omega)]

theorem stationOperand_eq {p : Station} (h : p.val = op.toNat) : stationOperand op = some p := by
  rw [stationOperand, dif_pos (by omega)]
  exact congrArg some (Fin.ext h.symm)

/-! ## What the READ commands answer (R176) -/

/-- `s` after the READ command `code` has been accepted with the view `v`, and nothing else. -/
def shows (s : State) (code op : Byte) (v : Vector Word 8) : State :=
  let u := commanded s code op
  resulted { u with host := { u.host with views := v } } code accepted

theorem exec_readWindow_above (running : s.phase = .running) (h : 8 ≤ op.toNat) :
    exec (.readWindow op) s = .next (answeredOnly s 0x12 op badParameter) := by
  simp only [exec, execReadWindow, State.takeCommand_running running, windowOperand_above h]
  rfl

theorem exec_readWindow (running : s.phase = .running) {w : WindowNo} (h : w.val = op.toNat) :
    exec (.readWindow op) s = .next (shows s 0x12 op (s.window w).view) := by
  simp only [exec, execReadWindow, State.takeCommand_running running, windowOperand_eq h]
  rfl

theorem exec_readWatch_above (running : s.phase = .running) (h : 8 ≤ op.toNat) :
    exec (.readWatch op) s = .next (answeredOnly s 0x13 op badParameter) := by
  simp only [exec, execReadWatch, State.takeCommand_running running, windowOperand_above h]
  rfl

theorem exec_readWatch (running : s.phase = .running) {w : WindowNo} (h : w.val = op.toNat) :
    exec (.readWatch op) s = .next ((shows s 0x13 op (noticeView (s.window w).notice)).setWindowAt w
      { s.window w with notice := none }) := by
  simp only [exec, execReadWatch, State.takeCommand_running running, windowOperand_eq h]
  rfl

theorem exec_readPeerChanges (running : s.phase = .running) :
    exec (.readPeerChanges op) s =
      .next { shows s 0x14 op #v[s.changes, 0#16, 0#16, 0#16, 0#16, 0#16, 0#16, 0#16] with changes := 0#16 } := by
  simp only [exec, execReadPeerChanges, State.takeCommand_running running]
  rfl

theorem exec_readPeer_above (running : s.phase = .running) (h : 16 ≤ op.toNat) :
    exec (.readPeer op) s = .next (answeredOnly s 0x11 op badParameter) := by
  simp only [exec, execReadPeer, State.takeCommand_running running, stationOperand_above h]
  rfl

theorem exec_readPeer (running : s.phase = .running) {p : Station} (h : p.val = op.toNat) :
    exec (.readPeer op) s = .next (shows s 0x11 op (s.peerView p)) := by
  simp only [exec, execReadPeer, State.takeCommand_running running, stationOperand_eq h]
  rfl

/-! ## The words of the views -/

/-- R70: word 0 of the view of a window. -/
theorem window_view_flags (x : Window) : x.view[0].toNat =
    bit x.enabled + 2 * bit x.watch + 4 * x.rights.code + 16 * bit x.notice.isSome := by
  have enabled := bit_le_one x.enabled
  have watch := bit_le_one x.watch
  have rights := rights_code_le x.rights
  have notice := bit_le_one x.notice.isSome
  exact toNat_packWord (by omega)

theorem window_view_base {x : Window} (h : x.base ≤ 0xFFFFFF) :
    x.view[1].toNat + 65536 * x.view[2].toNat = x.base :=
  lowWord_packWord h

theorem window_view_length {x : Window} (h : x.length ≤ 1048576) :
    x.view[3].toNat + 65536 * x.view[4].toNat = x.length :=
  lowWord_packWord (by omega)

/-- R87: word 0 of the view of a pending watch notice, its two peers. -/
theorem noticeView_peers (n : Notice) :
    (noticeView (some n))[0].toNat = 1 + 256 * n.firstPeer.val + 4096 * n.lastPeer.val :=
  toNat_packWord (by omega)

theorem noticeView_offset {n : Notice} (h : n.firstOffset < 1048576) :
    (noticeView (some n))[1].toNat + 65536 * (noticeView (some n))[2].toNat = n.firstOffset :=
  lowWord_packWord (by omega)

theorem noticeView_count {n : Notice} (h : n.count ≤ 65535) : (noticeView (some n))[3].toNat = n.count :=
  (BitVec.toNat_ofNat _ _).trans (Nat.mod_eq_of_lt (by omega))

theorem noticeView_idle (i : Fin 8) : (noticeView none)[i] = 0#16 := by simp [noticeView]

theorem noticeView_rest (x : Option Notice) (i : Fin 8) (h : 4 ≤ i.val) : (noticeView x)[i] = 0#16 := by
  cases x with
  | none => exact noticeView_idle i
  | some n =>
    have last : i = 4 ∨ i = 5 ∨ i = 6 ∨ i = 7 := by omega
    rcases last with rfl | rfl | rfl | rfl <;> rfl

/-- Settles O18: the three views, and what READ WATCH and READ PEER CHANGES clear. -/
theorem readWindowWatchAndPeerChanges : Obligations.ReadWindowWatchAndPeerChanges := by
  unfold Obligations.ReadWindowWatchAndPeerChanges
  refine ⟨fun op s running => ⟨exec_readWindow_above running, fun w h => ?_⟩,
    fun op s running => ⟨exec_readWatch_above running, fun w h => ?_, exec_readPeerChanges running⟩⟩
  · exact ⟨_, exec_readWindow running h, window_view_flags _, window_view_base, window_view_length, rfl, rfl, rfl⟩
  · refine ⟨_, exec_readWatch running h, fun n pending offset count => ?_, fun idle i => ?_, noticeView_rest _⟩
    · rw [pending]
      exact ⟨noticeView_peers n, noticeView_offset offset, noticeView_count count⟩
    · rw [idle]
      exact noticeView_idle i

/-! ## The view of a peer (R178) -/

/-- Status `i` of a served record, as READ PEER shows it. -/
theorem servedStatus_le (l : List ServedPair) (i : Nat) : ((l[i]?).map (·.status.code)).getD 0 ≤ 4 := by
  cases l[i]? with
  | none => exact Nat.zero_le 4
  | some x => exact replyStatus_code_le x.status

/-- Tag `i` of a credit wait list, as READ PEER shows it. -/
theorem waitingTag_lt (l : List Tag) (i : Nat) : ((l[i]?).map (·.val)).getD 0 < 16 := by
  cases l[i]? with
  | none => decide
  | some t => exact t.isLt

theorem occupiedBy_le (s : State) (p : Station) : s.occupiedBy p ≤ 8 := List.countP_le_length

/-- R37, R178: word 0 of the view of a peer. -/
theorem peerView_flags {p : Station} (held : (s.peer p).held ≤ 4) (grants : s.grantCount p ≤ 4) :
    (s.peerView p)[0].toNat = (s.peer p).state.code + 4 * bit ((s.peer p).state = .absent .left)
      + 8 * bit (s.peer p).incarnation.isSome + 16 * bit (s.peer p).mark.isSome
      + 32 * bit (s.peer p).silence.isRunning + 64 * bit (s.peer p).asked + 128 * bit (s.peer p).askTimer.isRunning
      + 256 * (s.peer p).held + 2048 * bit (s.askedHere p).isSome + 4096 * s.grantCount p := by
  have state := peerState_code_le (s.peer p).state
  have left := bit_le_one ((s.peer p).state = .absent .left)
  have incarnation := bit_le_one (s.peer p).incarnation.isSome
  have mark := bit_le_one (s.peer p).mark.isSome
  have silence := bit_le_one (s.peer p).silence.isRunning
  have asked := bit_le_one (s.peer p).asked
  have askTimer := bit_le_one (s.peer p).askTimer.isRunning
  have asker := bit_le_one (s.askedHere p).isSome
  exact toNat_packWord (by omega)

/-- R178: word 3 of the view of a peer, its counts. -/
theorem peerView_counts {p : Station} (waits : (s.peer p).waitList.length ≤ 4) (served : (s.peer p).served.length ≤ 4)
    (wanted : (s.askedHere p).getD 0 ≤ 4) :
    (s.peerView p)[3].toNat = (s.peer p).waitList.length + 16 * s.occupiedBy p + 256 * (s.askedHere p).getD 0
      + 4096 * (s.peer p).served.length := by
  have occupied := occupiedBy_le s p
  exact toNat_packWord (by omega)

/-- R178: word 4 of the view of a peer, the tags that wait for its credit. -/
theorem peerView_tags (s : State) (p : Station) :
    let tag (i : Nat) : Nat := (((s.peer p).waitList[i]?).map (·.val)).getD 0
    (s.peerView p)[4].toNat = tag 0 + 16 * tag 1 + 256 * tag 2 + 4096 * tag 3 := by
  have tag := waitingTag_lt (s.peer p).waitList
  have tag0 := tag 0
  have tag1 := tag 1
  have tag2 := tag 2
  have tag3 := tag 3
  dsimp only
  exact toNat_packWord (by omega)

/-- R178: word 7 of the view of a peer, the statuses of its served record. -/
theorem peerView_statuses (s : State) (p : Station) :
    let status (i : Nat) : Nat := (((s.peer p).served[i]?).map (·.status.code)).getD 0
    (s.peerView p)[7].toNat = status 0 + 8 * status 1 + 64 * status 2 + 512 * status 3 := by
  have status := servedStatus_le (s.peer p).served
  have status0 := status 0
  have status1 := status 1
  have status2 := status 2
  have status3 := status 3
  dsimp only
  exact toNat_packWord (by omega)

/-- Settles O19, word by word. -/
theorem readPeerShowsTheEntry : Obligations.ReadPeerShowsTheEntry := by
  unfold Obligations.ReadPeerShowsTheEntry
  refine fun op s running => ⟨exec_readPeer_above running, fun p h => ⟨_, exec_readPeer running h, ?_⟩⟩
  intro held grants waits served wanted
  have asker : (s.askedHere p).isSome = (s.credit.askList.find? fun a => a.peer = p).isSome := Option.isSome_map
  refine ⟨?_, rfl, rfl, peerView_counts waits served wanted, peerView_tags s p, rfl, rfl, peerView_statuses s p⟩
  rw [← asker]
  exact peerView_flags held grants

end Sys2Proof.HostViews
end

section
/-! SUPPORT. What the part's own steps and a peer cleanup leave of the peer table: presence, incarnation, mark and silence timer
of every peer, the change set, which inbound slots are occupied, and the sequences of a peer without held credits. -/
namespace Sys2Proof.PeerTable

open Sys2Proof Sys2Proof.Machine Sys2Proof.Safety

-- Each thread of the elaborator reserves 1 GB under the memory limit of the check.
set_option Elab.async false

/-- What is left of a peer entry. Without a held credit none is handed out, so no sequence is taken (R54, R133). -/
structure PeerKept (q q' : PeerEntry) : Prop where
  state : q'.state = q.state
  incarnation : q'.incarnation = q.incarnation
  mark : q'.mark = q.mark
  silence : q'.silence = q.silence
  unheld : q.held = 0 → q'.held = 0 ∧ q'.nextSeq = q.nextSeq

/-- What is left of the peer table and of the inbound slots. -/
structure PeersKept (s t : State) : Prop where
  latch : t.latch = s.latch
  changes : t.changes = s.changes
  occupied : ∀ i, (t.slot i).isSome = (s.slot i).isSome
  peer : ∀ p, PeerKept (s.peer p) (t.peer p)

variable {s t u : State} {p : Station}

theorem PeerKept.refl (q : PeerEntry) : PeerKept q q := ⟨rfl, rfl, rfl, rfl, fun h => ⟨h, rfl⟩⟩

theorem PeerKept.trans {q q' q'' : PeerEntry} (h : PeerKept q q') (h' : PeerKept q' q'') : PeerKept q q'' where
  state := h'.state.trans h.state
  incarnation := h'.incarnation.trans h.incarnation
  mark := h'.mark.trans h.mark
  silence := h'.silence.trans h.silence
  unheld none := by
    obtain ⟨none', seq⟩ := h.unheld none
    obtain ⟨none'', seq'⟩ := h'.unheld none'
    exact ⟨none'', seq'.trans seq⟩

theorem PeersKept.trans (h : PeersKept s t) (h' : PeersKept t u) : PeersKept s u where
  latch := h'.latch.trans h.latch
  changes := h'.changes.trans h.changes
  occupied i := (h'.occupied i).trans (h.occupied i)
  peer p := (h.peer p).trans (h'.peer p)

/-- A change of other blocks than the peer table and the inbound server. -/
theorem PeersKept.of_blocks (latch : t.latch = s.latch := by simp) (changes : t.changes = s.changes := by simp)
    (inbound : t.inbound = s.inbound := by simp) (peers : t.peers = s.peers := by simp) : PeersKept s t where
  latch := latch
  changes := changes
  occupied i := by rw [State.slot, inbound, State.slot]
  peer p := by rw [State.peer, State.peer, peers]; exact .refl _

theorem PeersKept.refl (s : State) : PeersKept s s := .of_blocks

/-- Such a change after another change, and before it. -/
theorem PeersKept.trans_blocks (h : PeersKept s t) (latch : u.latch = t.latch := by rfl)
    (changes : u.changes = t.changes := by rfl) (inbound : u.inbound = t.inbound := by rfl)
    (peers : u.peers = t.peers := by rfl) : PeersKept s u := h.trans (.of_blocks latch changes inbound peers)

theorem PeersKept.blocks_trans (h : PeersKept t u) (latch : t.latch = s.latch := by rfl)
    (changes : t.changes = s.changes := by rfl) (inbound : t.inbound = s.inbound := by rfl)
    (peers : t.peers = s.peers := by rfl) : PeersKept s u := (PeersKept.of_blocks latch changes inbound peers).trans h

/-- A change of one peer entry. -/
theorem peersKept_setPeer {q : PeerEntry} (h : PeerKept (s.peer p) q) : PeersKept s (s.setPeer p q) where
  latch := rfl
  changes := rfl
  occupied _ := rfl
  peer r := by
    rw [State.peer_setPeer]
    split
    · subst_vars; exact h
    · exact .refl _

/-- A change of fields of one peer entry other than those. -/
theorem peersKept_modPeer (s : State) (p : Station) (f : PeerEntry → PeerEntry)
    (h : PeerKept (s.peer p) (f (s.peer p)) := by exact ⟨rfl, rfl, rfl, rfl, fun h => ⟨h, rfl⟩⟩) :
    PeersKept s (s.modPeer p f) := peersKept_setPeer h

/-- A change of one inbound slot that leaves it occupied. -/
theorem peersKept_modSlot (s : State) (i : SlotNo) (f : Slot → Slot) : PeersKept s (s.modSlot i f) where
  latch := rfl
  changes := rfl
  occupied j := by
    rw [State.slot_modSlot]
    split
    · subst_vars; exact Option.isSome_map
    · rfl
  peer _ := .refl _

theorem peersKept_foldl {α : Type} {f : State → α → State} (h : ∀ s a, PeersKept s (f s a)) (l : List α) (s : State) :
    PeersKept s (l.foldl f s) := by
  induction l generalizing s with
  | nil => exact .refl s
  | cons a l ih => exact (h s a).trans (ih (f s a))

/-! ## The part's own steps -/

theorem peersKept_retire (s : State) (v : Tag) (o : PieceOutcome) : PeersKept s (s.retire v o) :=
  .of_blocks

theorem peersKept_leaveWaitList (s : State) (v : Tag) (p : Station) : PeersKept s (s.leaveWaitList v p) :=
  peersKept_modPeer s p _

theorem peersKept_joinWaitList (s : State) (v : Tag) (p : Station) : PeersKept s (s.joinWaitList v p) :=
  (peersKept_modPeer (s.modEntry v _) p _).blocks_trans

theorem peersKept_ask (s : State) (p : Station) : PeersKept s (s.ask p) :=
  (peersKept_modPeer s p fun q => { q with asked := true, askTimer := .running s.replyTimeout }).trans_blocks

theorem peersKept_issue (s : State) (v : Tag) (c : Chan) : PeersKept s (s.issue v c) := by
  have given : PeersKept s ((s.setEntry v (some ((s.chan c).nextEntry c))).setChan c (s.chan c).issueOne) := .of_blocks
  rcases PeerBus.issue_cases s v c with h | h
  · exact h ▸ given.trans_blocks
  · exact h ▸ (given.trans (peersKept_joinWaitList _ v _)).trans_blocks

/-- Handing needs a held credit. -/
theorem peersKept_creditHanding (h : s.creditHanding p = some t) : PeersKept s t := by
  obtain ⟨v, rest, e, seq, next, -, held, -, -, -, -, rfl⟩ := State.creditHanding_spec h
  have handed : PeerKept (s.peer p) { s.peer p with held := (s.peer p).held - 1, waitList := rest, nextSeq := next } :=
    ⟨rfl, rfl, rfl, rfl, fun none => absurd none held⟩
  exact (peersKept_setPeer handed).trans_blocks

theorem peersKept_startAccess (s : State) (a : Access) : PeersKept s (s.startAccess a) := by
  unfold State.startAccess
  split
  · exact peersKept_modSlot s _ _
  · exact peersKept_modSlot s _ _
  all_goals exact .refl s

theorem peersKept_accessGrant (h : s.accessGrant = some t) : PeersKept s t := by
  obtain ⟨-, ⟨a, rest, -, -, rfl⟩ | ⟨b, rest, -, -, rfl⟩⟩ := State.accessGrant_spec h
  · exact .of_blocks
  · exact (peersKept_startAccess { s with port := { s.port with
      inQueue := rest, current := some { access := b, dropped := false }, lastSide := .inbound } } b).blocks_trans

theorem peersKept_ownStep (h : s.ownStep = some t) : PeersKept s t := by
  rcases State.ownStep_cases h with ⟨v, h⟩ | h | ⟨c, h⟩ | h | ⟨p, h⟩ | ⟨p, h⟩ | h | h | h | h
  · obtain ⟨e, reason, -, -, -, rfl⟩ := State.absentRetire_spec h
    exact (peersKept_leaveWaitList s v e.peer).trans (peersKept_retire _ v _)
  · obtain ⟨-, rfl⟩ := State.judgeWaits_spec h
    exact .of_blocks
  · obtain ⟨-, rfl⟩ := State.descriptorEnd_spec h
    exact .of_blocks
  · obtain ⟨c, rest, r, -, -, -, -, rfl⟩ := State.recordWriteIssue_spec h
    exact .of_blocks
  · exact peersKept_creditHanding h
  · obtain ⟨-, -, -, rfl⟩ := State.asking_spec h
    exact peersKept_ask s p
  · obtain ⟨c, rest, v, -, -, -, rfl⟩ := State.entryAllocation_spec h
    exact (peersKept_issue { s with readyList := rest } v c).blocks_trans
  · obtain ⟨a, rest, -, -, -, g, -, rfl⟩ := State.granting_spec h
    exact .of_blocks
  · obtain ⟨-, -, -, -, rfl⟩ := State.leaveQueued_spec h
    exact .of_blocks
  · exact peersKept_accessGrant h

theorem peersKept_settle (s : State) : PeersKept s s.settle :=
  State.settle_rel .refl (fun _ _ _ => .trans) (fun _ _ => peersKept_ownStep) s

/-! ## A notice that fails the WAITs on a peer (R155 case 1) -/

theorem peersKept_failWaitsOn (s : State) (p : Station) : PeersKept s (s.failWaitsOn p) := by
  refine peersKept_foldl (fun s c => ?_) _ s
  split
  · split
    · exact .of_blocks
    · exact .refl s
  · exact .refl s

/-! ## Peer cleanup -/

theorem peersKept_cleanupEntry (s : State) (why : FaultCode) (v : Tag) (e : Entry) :
    PeersKept s (s.cleanupEntry why v e) := by
  unfold State.cleanupEntry
  split
  · exact (peersKept_leaveWaitList s v e.peer).trans (peersKept_retire _ v _)
  · split
    · exact (peersKept_retire (s.withdrawSending v) v _).blocks_trans
    · exact (peersKept_retire (s.withdrawRequest v) v _).blocks_trans
  · exact peersKept_retire s v _
  · exact .of_blocks
  · exact .refl s

theorem peersKept_cleanupEntries (s : State) (p : Station) (why : FaultCode) (fuel : Nat) :
    PeersKept s (State.cleanupEntries p why fuel s) :=
  PeerBus.cleanupEntries_keeps (P := PeersKept s) (fun t h => h.trans (peersKept_settle t))
    (fun t why v e _ h => h.trans (peersKept_cleanupEntry t why v e)) p why fuel (.refl s)

theorem peersKept_cleanupCredit (s : State) (p : Station) : PeersKept s (s.cleanupCredit p) :=
  (peersKept_modPeer s p (fun q => { q with held := 0, asked := false, askTimer := .stopped })
    ⟨rfl, rfl, rfl, rfl, fun _ => ⟨rfl, rfl⟩⟩).trans_blocks

theorem peersKept_markStale (s : State) (p : Station) : PeersKept s (s.markStale p) :=
  peersKept_foldl (fun s i => peersKept_modSlot s i _) _ s

/-- R45 to R48, R79: the cleanup leaves presence, incarnation, mark and silence timer, and every slot occupied. -/
theorem peersKept_cleanup (s : State) (p : Station) (why : FaultCode) : PeersKept s (s.cleanup p why) := by
  have entries := peersKept_cleanupEntries s p why 64
  have credit := peersKept_cleanupCredit (State.cleanupEntries p why 64 s) p
  exact ((entries.trans credit).trans (peersKept_modPeer _ p _)).trans (peersKept_markStale _ p)

end Sys2Proof.PeerTable
end

section
/-! SUPPORT. The peer table after a message heard and after silence (R38 to R45, R49). -/
namespace Sys2Proof.PeerTable

open Sys2Proof Sys2Proof.Machine Sys2Proof.Safety

-- Each thread of the elaborator reserves 1 GB under the memory limit of the check.
set_option Elab.async false

variable {s t v : State} {p : Station}

/-! ## A new entry of a peer, reported in the change set -/

/-- `v` with the new entry `q` of `p`, and `p` placed in the change set that `s` holds (R49). -/
def recorded (s v : State) (p : Station) (q : PeerEntry) : State :=
  { withPeer v p q with changes := s.changes ||| BitVec.ofNat 16 (2 ^ p.val) }

theorem recorded_peer (s v : State) (p : Station) (q : PeerEntry) : (recorded s v p q).peer p = q :=
  State.peer_setPeer_self v p q

theorem addChange_modPeer (k : PeersKept s v) (f : PeerEntry → PeerEntry) :
    (v.modPeer p f).addChange p = recorded s v p (f (v.peer p)) := by
  rw [recorded, ← k.changes]
  rfl

/-- The entry of a peer heard PRESENT, from the entry `q` before (R38). -/
def presentEntry (s : State) (q : PeerEntry) (inc : Byte) (mark : Option Word) : PeerEntry :=
  { q with state := .present, incarnation := some inc, mark, silence := .running s.silenceTimeout }

theorem addChange_hearPresent (k : PeersKept s v) (inc : Byte) (mark : Option Word) :
    (v.hearPresent p inc mark).addChange p = recorded s v p (presentEntry s (v.peer p) inc mark) := by
  have timeout : v.silenceTimeout = s.silenceTimeout := by
    simp only [State.silenceTimeout, State.presenceInterval, k.latch]
  rw [State.hearPresent, timeout]
  exact addChange_modPeer k _

/-! ## A message other than LEAVE (R38, R39) -/

/-- The message tells nothing of a new session of `p`. -/
def SameSession (s : State) (p : Station) (inc : Byte) (isJoin : Bool) : Prop :=
  (s.peer p).state = .present ∧ (s.peer p).incarnation = some inc ∧ isJoin = false

variable {inc : Byte} {mark : Option Word} {isJoin : Bool}

theorem presenceUpdate_sameSession (h : SameSession s p inc isJoin) : s.presenceUpdate p inc mark isJoin =
    withPeer s p { s.peer p with
      silence := .running s.silenceTimeout, mark := if mark.isSome then mark else (s.peer p).mark } := by
  obtain ⟨present, incarnation, rfl⟩ := h
  rw [State.presenceUpdate, present, incarnation]
  simp only [decide_true, Bool.not_false, Bool.and_self, if_true]
  rfl

theorem presenceUpdate_new (h : (s.peer p).state ≠ .present) :
    s.presenceUpdate p inc mark isJoin = recorded s s p (presentEntry s (s.peer p) inc mark) := by
  unfold State.presenceUpdate
  split
  · exact addChange_hearPresent (.refl s) inc mark
  · exact addChange_hearPresent (.refl s) inc mark
  · contradiction

theorem presenceUpdate_restarted (present : (s.peer p).state = .present) (h : ¬ SameSession s p inc isJoin) :
    s.presenceUpdate p inc mark isJoin =
      (recorded s (s.cleanup p .peerRestarted) p
        (presentEntry s ((s.cleanup p .peerRestarted).peer p) inc mark)).failWaitsOn p := by
  have new : ¬ (decide ((s.peer p).incarnation = some inc) && !isJoin) = true := by
    simpa [SameSession, present] using h
  simp only [State.presenceUpdate, present, if_neg new]
  rw [addChange_hearPresent (peersKept_cleanup s p .peerRestarted)]

/-- Settles O26: the same session, a peer that was not PRESENT, and a restart. -/
theorem presenceUpdateFollowsTheEntry : Obligations.PresenceUpdateFollowsTheEntry := by
  unfold Obligations.PresenceUpdateFollowsTheEntry
  intro s p inc mark isJoin t q sameSession present
  refine ⟨presenceUpdate_sameSession, fun new => ?_, presenceUpdate_new, presenceUpdate_restarted⟩
  have updated : ∃ v, PeersKept (recorded s v p (presentEntry s (v.peer p) inc mark)) t := by
    by_cases h : q.state = .present
    · exact ⟨_, presenceUpdate_restarted h new ▸ peersKept_failWaitsOn _ p⟩
    · exact ⟨s, presenceUpdate_new (isJoin := isJoin) h ▸ .refl _⟩
  obtain ⟨v, kept⟩ := updated
  have entry := kept.peer p
  rw [recorded_peer] at entry
  exact ⟨entry.state, entry.incarnation, entry.mark, entry.silence, kept.changes⟩

/-! ## LEAVE and silence (R40, R41, R44) -/

/-- The entry of a peer that has left, from the entry `q` before (R40). -/
def leftEntry (q : PeerEntry) (inc : Byte) (mark : Word) : PeerEntry :=
  { q with state := .absent .left, incarnation := some inc, mark := some mark, silence := .stopped }

/-- The state after the LEAVE of `p`, before the notice to the mark unit. -/
def leftState (s : State) (p : Station) (inc : Byte) (mark : Word) : State :=
  recorded s (s.cleanup p .peerLeft) p (leftEntry ((s.cleanup p .peerLeft).peer p) inc mark)

/-- An ABSENT peer repeats its LEAVE (R42, R153). -/
def Repeated (s : State) (p : Station) (inc : Byte) (mark : Word) : Prop :=
  (∃ reason, (s.peer p).state = .absent reason) ∧ (s.peer p).incarnation = some inc ∧ (s.peer p).mark = some mark

theorem leaveUpdate_repeated {mark : Word} (h : Repeated s p inc mark) :
    s.leaveUpdate p inc mark = leftState s p inc mark := by
  obtain ⟨⟨reason, absent⟩, incarnation, sameMark⟩ := h
  simp only [State.leaveUpdate, absent, incarnation, sameMark, decide_true, Bool.and_self, if_true]
  exact addChange_modPeer (peersKept_cleanup s p .peerLeft) fun q => leftEntry q inc mark

theorem leaveUpdate_notified {mark : Word} (h : ¬ Repeated s p inc mark) :
    s.leaveUpdate p inc mark = (leftState s p inc mark).failWaitsOn p := by
  have recorded := addChange_modPeer (p := p) (peersKept_cleanup s p .peerLeft) fun q => leftEntry q inc mark
  refine (if_neg fun hr => h ?_).trans (congrArg (State.failWaitsOn · p) recorded)
  simp only [Bool.and_eq_true, decide_eq_true_eq] at hr
  obtain ⟨⟨absent, incarnation⟩, sameMark⟩ := hr
  refine ⟨?_, incarnation, sameMark⟩
  split at absent
  · exact ⟨_, ‹_›⟩
  · cases absent
  · cases absent

theorem peersKept_leaveUpdate (s : State) (p : Station) (inc : Byte) (mark : Word) :
    PeersKept (leftState s p inc mark) (s.leaveUpdate p inc mark) := by
  by_cases h : Repeated s p inc mark
  · exact leaveUpdate_repeated h ▸ .refl _
  · exact leaveUpdate_notified h ▸ peersKept_failWaitsOn _ p

/-- The state after the silence timeout of `p`, before the notice to the mark unit (R41). -/
def silentState (s : State) (p : Station) : State :=
  recorded s (s.cleanup p .peerLost) p
    { (s.cleanup p .peerLost).peer p with state := .absent .silent, silence := .stopped }

theorem silenceUpdate_eq (s : State) (p : Station) : s.silenceUpdate p = (silentState s p).failWaitsOn p :=
  congrArg (State.failWaitsOn · p) (addChange_modPeer (peersKept_cleanup s p .peerLost)
    fun q => { q with state := .absent .silent, silence := .stopped })

/-! ## The rows -/

theorem exec_presenceHeard {source : Byte} (h : Hearing s source p) (inc : Byte) (mark : Word) :
    exec (.presenceHeard source inc mark) s = .next ((heardLine s p).presenceUpdate p inc (some mark) false).settle :=
  congrArg _ (State.hearFrom_hearing h _)

theorem exec_joinHeard {source : Byte} (h : Hearing s source p) (inc : Byte) (mark : Word) :
    exec (.joinHeard source inc mark) s =
      .next ((heardLine s p).presenceUpdate p inc (some mark) true).queuePresence.settle :=
  congrArg _ (State.hearFrom_hearing h _)

theorem exec_leaveHeard {source : Byte} (h : Hearing s source p) (inc : Byte) (mark : Word) :
    exec (.leaveHeard source inc mark) s = .next ((heardLine s p).leaveUpdate p inc mark).settle :=
  congrArg _ (State.hearFrom_hearing h _)

/-- R22 step 4, R38: a message to another station brings news of its sender only. -/
theorem exec_overheardMessage {source : Byte} (h : Hearing s source p) {dest kind : Byte} (station : dest.toNat < 16)
    (other : dest ≠ source) (notOwn : dest.toNat ≠ s.own) (low : 4 ≤ kind.toNat) (high : kind.toNat ≤ 9) (inc : Byte) :
    exec (.overheardMessage dest source kind inc) s = .next (delivered s p inc).settle := by
  have wellFormed : Instr.wellFormed (.overheardMessage dest source kind inc) = true := by
    obtain ⟨-, -, number, -, -⟩ := h
    simp only [Instr.wellFormed, wfSource, Bool.and_eq_true, decide_eq_true_eq, bne_iff_ne]
    exact ⟨⟨⟨⟨number ▸ p.isLt, station⟩, other⟩, low⟩, high⟩
  simp only [exec, execOverheardMessage, if_neg notOwn, wellFormed, State.hearFrom_hearing h]
  rfl

theorem exec_silenceTimerExpiry {ms : Nat} (h : (s.peer p).silence = .running ms) :
    exec (.silenceTimerExpiry p) s = .next ((silentState s p).failWaitsOn p).settle := by
  simp only [exec, execSilenceTimerExpiry, h, Timer.isRunning, if_true, silenceUpdate_eq]

/-- Settles O28: the rows by their updates, and what the own steps leave of the entry. -/
theorem announcementsAndSilence : Obligations.AnnouncementsAndSilence := by
  unfold Obligations.AnnouncementsAndSilence
  refine ⟨fun s source p h => ⟨fun inc mark => ⟨exec_presenceHeard h inc mark, exec_joinHeard h inc mark, ?_, ?_⟩,
    fun dest kind inc station other notOwn low high => exec_overheardMessage h station other notOwn low high inc⟩,
    fun s p => ⟨fun source inc mark t h left => ?_, fun ms running => ?_⟩⟩
  · intro repeated
    rw [exec_leaveHeard h, leaveUpdate_repeated (s := heardLine s p) repeated]
    rfl
  · intro new
    rw [exec_leaveHeard h, leaveUpdate_notified (s := heardLine s p) new]
    rfl
  · rw [exec_leaveHeard h] at left
    cases left
    have kept := (peersKept_leaveUpdate (heardLine s p) p inc mark).trans (peersKept_settle _)
    have entry := kept.peer p
    rw [leftState, recorded_peer] at entry
    exact ⟨entry.state, entry.incarnation, entry.mark, entry.silence, kept.changes⟩
  · refine ⟨_, exec_silenceTimerExpiry running, rfl, ?_⟩
    have kept := (peersKept_failWaitsOn (silentState s p) p).trans (peersKept_settle _)
    have before := (peersKept_cleanup s p .peerLost).peer p
    have entry := kept.peer p
    rw [silentState, recorded_peer] at entry
    exact ⟨entry.state, entry.incarnation.trans before.incarnation, entry.mark.trans before.mark, entry.silence,
      kept.changes⟩

end Sys2Proof.PeerTable
end

section
/-! SUPPORT. Peer cleanup (R45 to R48, R79, R145, R147): which entry it settles next and how, and what it leaves for the peer. -/
namespace Sys2Proof.PeerTable

open Sys2Proof Sys2Proof.Machine Sys2Proof.Safety

-- Each thread of the elaborator reserves 1 GB under the memory limit of the check.
set_option Elab.async false

variable {s : State} {p : Station} {t : Tag} {e : Entry} {why : FaultCode}

/-! ## The order of the entries (R45, R147) -/

/-- Entry `t` is to `p` and is still to be settled by a cleanup for `p`. -/
def Unsettled (s : State) (p : Station) (t : Tag) : Prop := ∃ e, s.entry t = some e ∧ e.peer = p ∧
  (e.state = .waitingCredit ∨ e.state = .queued ∨ e.state = .sent ∨ e.state = .loading ∧ e.retireReason = none)

theorem unsettledBy_iff (p : Station) (e : Entry) : e.unsettledBy p = true ↔ e.peer = p ∧
    (e.state = .waitingCredit ∨ e.state = .queued ∨ e.state = .sent ∨ e.state = .loading ∧ e.retireReason = none) := by
  cases h : e.state <;> simp [Entry.unsettledBy, h]

theorem any_unsettledBy_iff (s : State) (p : Station) (t : Tag) :
    (s.entry t).any (Entry.unsettledBy p) = true ↔ Unsettled s p t := by
  simp only [Option.any_eq_true, unsettledBy_iff, Unsettled]

theorem nextUnsettled_eq (s : State) (p : Station) :
    s.nextUnsettled p = allTags.find? fun t => (s.entry t).any (Entry.unsettledBy p) := by
  unfold State.nextUnsettled
  congr 1
  funext t
  cases s.entry t <;> rfl

theorem nextUnsettled_none (h : ∀ t, ¬ Unsettled s p t) : s.nextUnsettled p = none := by
  rw [nextUnsettled_eq, List.find?_eq_none]
  exact fun t _ settles => h t ((any_unsettledBy_iff s p t).1 settles)

theorem allTags_sorted : allTags.Pairwise (· < ·) := by decide

theorem nextUnsettled_least (h : Unsettled s p t) (least : ∀ u < t, ¬ Unsettled s p u) : s.nextUnsettled p = some t := by
  obtain ⟨before, after, tags⟩ := List.append_of_mem (PeerBus.mem_allTags t)
  have sorted := allTags_sorted
  rw [tags, List.pairwise_append] at sorted
  obtain ⟨-, -, lower⟩ := sorted
  rw [nextUnsettled_eq, List.find?_eq_some_iff_append]
  refine ⟨(any_unsettledBy_iff s p t).2 h, before, after, tags, fun u hu => ?_⟩
  rw [Bool.not_eq_true', Bool.eq_false_iff]
  exact fun settles => least u (lower u hu t List.mem_cons_self) ((any_unsettledBy_iff s p u).1 settles)

theorem cleanupEntries_settled (h : ∀ t, ¬ Unsettled s p t) (n : Nat) : State.cleanupEntries p why n s = s := by
  cases n with
  | zero => rfl
  | succ n => rw [State.cleanupEntries, nextUnsettled_none h]

theorem cleanupEntries_next (he : s.entry t = some e) (h : Unsettled s p t) (least : ∀ u < t, ¬ Unsettled s p u)
    (n : Nat) :
    State.cleanupEntries p why (n + 1) s = State.cleanupEntries p why n (s.cleanupEntry why t e).settle := by
  rw [State.cleanupEntries, nextUnsettled_least h least]
  simp only [he]

/-! ## One entry (R45, R145) -/

theorem cleanupEntry_waitingCredit (h : e.state = .waitingCredit) :
    s.cleanupEntry why t e = (s.leaveWaitList t e.peer).retire t (e.failedOrAborted why) := by
  rw [State.cleanupEntry, h]

theorem cleanupEntry_queued (h : e.state = .queued) (waits : e.inTransmission = false) :
    s.cleanupEntry why t e = (s.withdrawRequest t).retire t (e.failedOrAborted why) := by
  rw [State.cleanupEntry, h]
  simp only [waits, Bool.false_eq_true, if_false]

theorem cleanupEntry_inTransmission (h : e.state = .queued) (sending : e.inTransmission = true) :
    s.cleanupEntry why t e = (s.withdrawSending t).retire t (e.failedOrAborted why) := by
  rw [State.cleanupEntry, h]
  simp only [sending, if_true]

theorem cleanupEntry_sent (h : e.state = .sent) : s.cleanupEntry why t e = s.retire t (e.failedOrAborted why) := by
  rw [State.cleanupEntry, h]

theorem cleanupEntry_loading (h : e.state = .loading) :
    s.cleanupEntry why t e = s.setEntry t (some { e with retireReason := some why }) := by
  rw [State.cleanupEntry, h]

theorem cleanupEntry_storing (h : e.state = .storing) : s.cleanupEntry why t e = s := by
  rw [State.cleanupEntry, h]

/-! ## Inbound slots (R79) -/

/-- A slot after the cleanup for `p`. -/
def staleFor (p : Station) (x : Slot) : Slot := if x.requester = p then { x with stale := true } else x

theorem staleFor_staleFor (p : Station) (x : Slot) : staleFor p (staleFor p x) = staleFor p x := by
  by_cases h : x.requester = p <;> simp [staleFor, h]

theorem stale_of_requester {x : Slot} (h : (staleFor p x).requester = p) : (staleFor p x).stale = true := by
  by_cases requester : x.requester = p
  · simp [staleFor, requester]
  · simp [staleFor, requester] at h

/-- A change that makes no difference the second time, made of the slots of a list. -/
theorem slot_foldl_modSlot {f : Slot → Slot} (idem : ∀ x, f (f x) = f x) (l : List SlotNo) (s : State) (i : SlotNo) :
    (l.foldl (fun s i => s.modSlot i f) s).slot i = if i ∈ l then (s.slot i).map f else s.slot i := by
  induction l generalizing s with
  | nil => rfl
  | cons j l ih =>
    rw [List.foldl_cons, ih, State.slot_modSlot]
    by_cases h : j = i
    · subst h
      cases s.slot j <;> simp [idem]
    · simp [h, Ne.symm h]

theorem mem_allSlots (i : SlotNo) : i ∈ allSlots := by revert i; decide

theorem slot_markStale (s : State) (p : Station) (i : SlotNo) : (s.markStale p).slot i = (s.slot i).map (staleFor p) :=
  (slot_foldl_modSlot (staleFor_staleFor p) allSlots s i).trans (if_pos (mem_allSlots i))

/-- The same change of slots, one after another, writes the inbound server only. -/
theorem foldl_modSlot_frame (f : Slot → Slot) (l : List SlotNo) (s : State) :
    ∃ x, l.foldl (fun s i => s.modSlot i f) s = { s with inbound := x } := by
  induction l generalizing s with
  | nil => exact ⟨_, rfl⟩
  | cons i l ih =>
    obtain ⟨x, h⟩ := ih (s.modSlot i f)
    exact ⟨x, h⟩

/-! ## The peer after its cleanup (R46, R48) -/

/-- `u` without the credit state and the served record of `p`. -/
def forgotten (u : State) (p : Station) : State := (u.cleanupCredit p).modPeer p fun q => { q with served := [] }

theorem cleanup_eq (s : State) (p : Station) (why : FaultCode) :
    s.cleanup p why = (forgotten (State.cleanupEntries p why 64 s) p).markStale p := rfl

/-- Marking slots stale changes the inbound server only. -/
theorem cleanup_frame (s : State) (p : Station) (why : FaultCode) :
    ∃ x, s.cleanup p why = { forgotten (State.cleanupEntries p why 64 s) p with inbound := x } := by
  rw [cleanup_eq]
  exact foldl_modSlot_frame _ _ _

theorem forgotten_peer (u : State) (p : Station) : (forgotten u p).peer p =
    { u.peer p with held := 0, asked := false, askTimer := .stopped, served := [] } := by
  have credit : (u.cleanupCredit p).peer p = { u.peer p with held := 0, asked := false, askTimer := .stopped } :=
    State.peer_modPeer_self u p fun q => { q with held := 0, asked := false, askTimer := .stopped }
  rw [forgotten, State.peer_modPeer_self, credit]

theorem forgotten_grantCount (u : State) (p : Station) : (forgotten u p).grantCount p = 0 :=
  State.grantCount_setGrant_self _ p 0

theorem forgotten_askList {u : State} {a : Asker} (h : a ∈ (forgotten u p).credit.askList) : a.peer ≠ p :=
  of_decide_eq_true (List.mem_filter.1 h).2

theorem forgotten_controlQueue {u : State} {c : Control} (h : c ∈ (forgotten u p).bus.controlQueue) :
    c.isAskTo p = false ∧ c.isGrantTo p = false := by
  have kept : (!(c.isAskTo p || c.isGrantTo p)) = true := (List.mem_filter.1 h).2
  simpa using kept

theorem forgotten_transmit (u : State) (p : Station) : (forgotten u p).bus.transmit =
    u.bus.transmit.map (Transmission.withdrawIf fun c => c.isAskTo p || c.isGrantTo p) := rfl

theorem withdrawIf_control {x : Transmission} {c : Control} (h : x.item = .control c) (f : Control → Bool) :
    x.withdrawIf f = if f c then { x with withdrawn := true } else x := by
  rw [Transmission.withdrawIf, h]

theorem withdrawIf_other {x : Transmission} (h : ∀ c, x.item ≠ .control c) (f : Control → Bool) : x.withdrawIf f = x := by
  unfold Transmission.withdrawIf
  split
  · exact absurd ‹_› (h _)
  all_goals rfl

/-- R79: every slot stays occupied, and those of `p` are stale. -/
theorem cleanup_slot_stale {i : SlotNo} {x : Slot} (h : (s.cleanup p why).slot i = some x) (requester : x.requester = p) :
    x.stale = true := by
  rw [cleanup_eq, slot_markStale, Option.map_eq_some_iff] at h
  obtain ⟨y, -, rfl⟩ := h
  exact stale_of_requester requester

/-- Settles O27: the peer after its cleanup, the order of the entries, and one entry by its state. -/
theorem cleanupClearsThePeer : Obligations.CleanupClearsThePeer := by
  unfold Obligations.CleanupClearsThePeer
  refine ⟨fun s p why => ?_, fun s p why n => ⟨fun settled => cleanupEntries_settled settled n,
    fun t e he unsettled least => cleanupEntries_next he unsettled least n⟩, fun s t e why =>
    ⟨cleanupEntry_waitingCredit, cleanupEntry_queued, cleanupEntry_inTransmission, cleanupEntry_sent,
      cleanupEntry_loading, cleanupEntry_storing⟩⟩
  intro t u
  obtain ⟨x, frame⟩ : ∃ x, t = { forgotten u p with inbound := x } := cleanup_frame s p why
  have peer : t.peer p = { u.peer p with held := 0, asked := false, askTimer := .stopped, served := [] } := by
    rw [frame]
    exact forgotten_peer u p
  have bus : t.bus = (forgotten u p).bus := by rw [frame]
  have credit : t.credit = (forgotten u p).credit := by rw [frame]
  have kept : PeersKept s t := peersKept_cleanup s p why
  have stale : ∀ i x, t.slot i = some x → x.requester = p → x.stale = true := fun _ _ => cleanup_slot_stale
  clear_value t u
  refine ⟨by rw [frame]; rfl, by rw [frame]; rfl, by rw [frame]; rfl, by rw [frame]; rfl, by rw [peer], by rw [peer],
    by rw [peer], by rw [peer], ?_, ?_, ?_, ?_, by rw [peer], fun none => ((kept.peer p).unheld none).2,
    stale, kept.occupied⟩
  · rw [State.grantCount, credit]
    exact forgotten_grantCount u p
  · rw [credit]
    exact fun a => forgotten_askList
  · rw [bus]
    exact fun c => forgotten_controlQueue
  · rw [bus]
    refine (forgotten_transmit u p).trans (congrArg (Option.map · _) (funext fun y => ?_))
    split
    case h_1 c item => simp only [withdrawIf_control item, Bool.or_eq_true]
    case h_2 r item => exact withdrawIf_other (item ▸ nofun) _
    case h_3 v item => exact withdrawIf_other (item ▸ nofun) _

end Sys2Proof.PeerTable
end

section
/-! SUPPORT. What the part's own steps leave of the state (log 1, log 17): the bus and the channel engine go on, the rest stays. -/
namespace Sys2Proof.OwnSteps

open Sys2Proof Sys2Proof.Machine Sys2Proof.Safety

-- Each thread of the elaborator reserves 1 GB under the memory limit of the check.
set_option Elab.async false

/-! ## What is left, block by block -/

/-- The blocks that no own step writes. -/
structure BlocksLeft (s t : State) : Prop where
  phase : t.phase = s.phase := by simp
  latch : t.latch = s.latch := by simp
  station : t.station = s.station := by simp
  windows : t.windows = s.windows := by simp
  changes : t.changes = s.changes := by simp
  host : t.host = s.host := by simp
  written : t.written = s.written := by simp
  pending : t.pending = s.pending := by simp

/-- The bus interface, but for its control queue and its request queue. -/
structure LineLeft (b b' : BusInterface) : Prop where
  slotRef : b'.slotRef = b.slotRef := by rfl
  line : b'.line = b.line := by rfl
  slotClock : b'.slotClock = b.slotClock := by rfl
  clashCount : b'.clashCount = b.clashCount := by rfl
  replyQueue : b'.replyQueue = b.replyQueue := by rfl
  transmit : b'.transmit = b.transmit := by rfl

/-- The ring, but for the channels that wait; a record write begins only where the ring has room (R166). -/
structure RingLeft (r r' : RingUnit) : Prop where
  config : r'.config = r.config := by rfl
  producer : r'.producer = r.producer := by rfl
  consumer : r'.consumer = r.consumer := by rfl
  begun : r'.inProgress.isSome = true → r.inProgress.isSome = true ∨ r.hasRoom = true := by exact .inl

/-- A peer entry: its served record stays, and held credits are only spent. -/
structure PeerLeft (q q' : PeerEntry) : Prop where
  served : q'.served = q.served := by rfl
  held : q'.held ≤ q.held := by exact Nat.le_refl _

/-- An inbound slot changes only by entering ACCESSING (R80). -/
def SlotLeft (x y : Option Slot) : Prop := y = x ∨ ∃ z, x = some z ∧ y = some { z with state := .accessing }

/-- The fault record of a channel counts within its range (R105). -/
def FaultCounts (ch : Channel) : Prop := ∀ f, ch.fault = some f → f.further ≤ 255

/-- The part's own steps, and the operations of the channel engine and the transaction table that they are made of, leave
this much of a state. -/
structure OwnLeaves (s t : State) : Prop where
  blocks : BlocksLeft s t
  line : LineLeft s.bus t.bus
  ring : RingLeft s.ring t.ring
  refusals : t.credit.refusals = s.credit.refusals
  arrivals : t.inbound.arrivals = s.inbound.arrivals
  peer : ∀ p, PeerLeft (s.peer p) (t.peer p)
  grants : ∀ p, s.grantCount p ≤ t.grantCount p
  slot : ∀ i, SlotLeft (s.slot i) (t.slot i)
  faults : ∀ c, FaultCounts (s.chan c) → FaultCounts (t.chan c)

variable {s t u : State}

theorem LineLeft.of_eq {b b' : BusInterface} (h : b' = b) : LineLeft b b' := by subst h; exact {}

theorem RingLeft.of_eq {r r' : RingUnit} (h : r' = r) : RingLeft r r' := by subst h; exact {}

theorem SlotLeft.refl (x : Option Slot) : SlotLeft x x := .inl rfl

theorem SlotLeft.trans {x y z : Option Slot} (h : SlotLeft x y) (h' : SlotLeft y z) : SlotLeft x z := by
  rcases h with rfl | ⟨a, rfl, rfl⟩
  · exact h'
  · rcases h' with rfl | ⟨b, hb, rfl⟩
    · exact .inr ⟨a, rfl, rfl⟩
    · cases hb
      exact .inr ⟨a, rfl, rfl⟩

theorem BlocksLeft.trans (h : BlocksLeft s t) (h' : BlocksLeft t u) : BlocksLeft s u where
  phase := h'.phase.trans h.phase
  latch := h'.latch.trans h.latch
  station := h'.station.trans h.station
  windows := h'.windows.trans h.windows
  changes := h'.changes.trans h.changes
  host := h'.host.trans h.host
  written := h'.written.trans h.written
  pending := h'.pending.trans h.pending

theorem LineLeft.trans {b b' b'' : BusInterface} (h : LineLeft b b') (h' : LineLeft b' b'') : LineLeft b b'' where
  slotRef := h'.slotRef.trans h.slotRef
  line := h'.line.trans h.line
  slotClock := h'.slotClock.trans h.slotClock
  clashCount := h'.clashCount.trans h.clashCount
  replyQueue := h'.replyQueue.trans h.replyQueue
  transmit := h'.transmit.trans h.transmit

theorem RingLeft.hasRoom {r r' : RingUnit} (h : RingLeft r r') : r'.hasRoom = r.hasRoom := by
  rw [RingUnit.hasRoom, RingUnit.hasRoom, RingUnit.fill, RingUnit.fill, h.config, h.producer, h.consumer]

theorem RingLeft.trans {r r' r'' : RingUnit} (h : RingLeft r r') (h' : RingLeft r' r'') : RingLeft r r'' where
  config := h'.config.trans h.config
  producer := h'.producer.trans h.producer
  consumer := h'.consumer.trans h.consumer
  begun begun := (h'.begun begun).elim h.begun fun room => .inr (h.hasRoom ▸ room)

theorem OwnLeaves.trans (h : OwnLeaves s t) (h' : OwnLeaves t u) : OwnLeaves s u where
  blocks := h.blocks.trans h'.blocks
  line := h.line.trans h'.line
  ring := h.ring.trans h'.ring
  refusals := h'.refusals.trans h.refusals
  arrivals := h'.arrivals.trans h.arrivals
  peer p := ⟨(h'.peer p).served.trans (h.peer p).served, (h'.peer p).held.trans (h.peer p).held⟩
  grants p := (h.grants p).trans (h'.grants p)
  slot i := (h.slot i).trans (h'.slot i)
  faults c := h'.faults c ∘ h.faults c

/-- A change of the queues of the bus, the ring and the blocks that are not spoken of. -/
theorem OwnLeaves.of_line (line : LineLeft s.bus t.bus := by exact .of_eq (by simp))
    (ring : RingLeft s.ring t.ring := by exact .of_eq (by simp)) (blocks : BlocksLeft s t := by exact {})
    (peers : t.peers = s.peers := by simp) (credit : t.credit = s.credit := by simp)
    (inbound : t.inbound = s.inbound := by simp) (channels : t.channels = s.channels := by simp) : OwnLeaves s t where
  blocks := blocks
  line := line
  ring := ring
  refusals := by rw [credit]
  arrivals := by rw [inbound]
  peer p := by rw [State.peer, State.peer, peers]; exact {}
  grants p := by rw [State.grantCount, State.grantCount, credit]
  slot i := by rw [State.slot, State.slot, inbound]; exact .refl _
  faults c := by rw [State.chan, State.chan, channels]; exact id

theorem OwnLeaves.refl (s : State) : OwnLeaves s s := .of_line

/-- A change of one peer entry. -/
theorem ownLeaves_setPeer {p : Station} {q : PeerEntry} (h : PeerLeft (s.peer p) q) : OwnLeaves s (s.setPeer p q) where
  blocks := {}
  line := {}
  ring := {}
  refusals := rfl
  arrivals := rfl
  peer r := by
    rw [State.peer_setPeer]
    split
    · subst_vars; exact h
    · exact {}
  grants _ := Nat.le_refl _
  slot _ := .refl _
  faults _ := id

theorem ownLeaves_modPeer (s : State) (p : Station) (f : PeerEntry → PeerEntry)
    (h : PeerLeft (s.peer p) (f (s.peer p)) := by exact {}) : OwnLeaves s (s.modPeer p f) := ownLeaves_setPeer h

/-- A change of one channel. -/
theorem ownLeaves_setChan (s : State) (c : Chan) (x : Channel)
    (h : FaultCounts (s.chan c) → FaultCounts x := by exact id) : OwnLeaves s (s.setChan c x) where
  blocks := {}
  line := {}
  ring := {}
  refusals := rfl
  arrivals := rfl
  peer _ := {}
  grants _ := Nat.le_refl _
  slot _ := .refl _
  faults d := by
    rw [State.chan_setChan]
    split
    · subst_vars; exact h
    · exact id

theorem ownLeaves_modChan (s : State) (c : Chan) (f : Channel → Channel)
    (h : FaultCounts (s.chan c) → FaultCounts (f (s.chan c)) := by exact id) : OwnLeaves s (s.modChan c f) :=
  ownLeaves_setChan s c _ h

/-- Operations one after another for the members of a list. -/
theorem ownLeaves_foldl {α : Type} {f : State → α → State} (h : ∀ s a, OwnLeaves s (f s a)) (l : List α) (s : State) :
    OwnLeaves s (l.foldl f s) := by
  induction l generalizing s with
  | nil => exact .refl s
  | cons a l ih => exact (h s a).trans (ih (f s a))

/-! ## Fault records (R105, R106) -/

theorem faultCounts_of_none {ch : Channel} (h : ch.fault = none) : FaultCounts ch := fun f hf => by rw [h] at hf; cases hf

theorem faultCounts_of_some {ch : Channel} {f : FaultRecord} (h : ch.fault = some f) (counts : f.further ≤ 255) :
    FaultCounts ch := fun g hg => by rw [h] at hg; cases hg; exact counts

theorem more_further_le (f : FaultRecord) : f.more.further ≤ 255 := Nat.min_le_left _ _

theorem faultCounts_pieceFault (ch : Channel) (code : FaultCode) (piece : Nat) (p : Station) :
    FaultCounts (ch.pieceFault code piece p) := by
  unfold Channel.pieceFault
  split
  · exact faultCounts_of_some rfl (Nat.zero_le _)
  · exact faultCounts_of_some rfl (more_further_le _)

theorem faultCounts_channelFault (ch : Channel) (code : FaultCode) (p : Option Station) :
    FaultCounts (ch.channelFault code p) := by
  unfold Channel.channelFault
  split
  · exact faultCounts_of_some rfl (Nat.zero_le _)
  · split
    · exact faultCounts_of_some rfl (more_further_le _)
    · exact faultCounts_of_some rfl (more_further_le _)

theorem faultCounts_applyOutcome {ch : Channel} (o : PieceOutcome) (piece : Nat) (p : Station) (h : FaultCounts ch) :
    FaultCounts (ch.applyOutcome o piece p) := by
  cases o with
  | done => exact h
  | aborted => exact h
  | failed code =>
      have counts := faultCounts_pieceFault { ch with owned := ch.owned - 1, failed := ch.failed + 1 } code piece p
      simp only [Channel.applyOutcome]
      split
      · exact counts
      · exact counts

/-! ## The transaction table -/

theorem ownLeaves_setEntry (s : State) (v : Tag) (x : Option Entry) : OwnLeaves s (s.setEntry v x) := .of_line

theorem ownLeaves_retire (s : State) (v : Tag) (o : PieceOutcome) : OwnLeaves s (s.retire v o) := by
  unfold State.retire
  split
  · exact .refl s
  · rename_i e _
    have reported := ownLeaves_modChan (s.setEntry v none) e.chan (fun ch => ch.applyOutcome o e.piece e.peer)
      (faultCounts_applyOutcome o e.piece e.peer)
    exact ((ownLeaves_setEntry s v none).trans reported).trans .of_line

theorem ownLeaves_leaveWaitList (s : State) (v : Tag) (p : Station) : OwnLeaves s (s.leaveWaitList v p) :=
  ownLeaves_modPeer s p _

theorem ownLeaves_joinWaitList (s : State) (v : Tag) (p : Station) : OwnLeaves s (s.joinWaitList v p) :=
  (ownLeaves_setEntry s v _).trans (ownLeaves_modPeer (s.modEntry v _) p _)

theorem ownLeaves_queueControl (s : State) (c : Control) : OwnLeaves s (s.queueControl c) :=
  .of_line {} {} {} rfl rfl rfl rfl

theorem ownLeaves_queueRequest (s : State) (v : Tag) : OwnLeaves s (s.queueRequest v) :=
  .of_line {} {} {} rfl rfl rfl rfl

theorem ownLeaves_queueOutbound (s : State) (a : Access) : OwnLeaves s (s.queueOutbound a) := .of_line

/-! ## The channel engine -/

theorem ownLeaves_queuePresence (s : State) : OwnLeaves s s.queuePresence := by
  unfold State.queuePresence
  split
  · exact .refl s
  · exact ownLeaves_queueControl s .presence

theorem ownLeaves_advanceMark (s : State) : OwnLeaves s s.advanceMark := by
  have raised : OwnLeaves s { s with marks := { s.marks with own := s.marks.own + 1#16 } } := .of_line
  simp only [State.advanceMark]
  split
  · exact raised.trans (ownLeaves_queuePresence _)
  · exact raised

theorem ownLeaves_beginFetch (s : State) (c : Chan) (a : Nat) : OwnLeaves s (s.beginFetch c a) :=
  (ownLeaves_modChan s c (fun ch => ch.begin a) fun _ => faultCounts_of_none rfl).trans
    (ownLeaves_queueOutbound _ _)

theorem ownLeaves_chainOrIdle (s : State) (c : Chan) (chains : Bool) (a : Nat) :
    OwnLeaves s (s.chainOrIdle c chains a) := by
  unfold State.chainOrIdle
  split
  · exact ownLeaves_beginFetch s c a
  · exact ownLeaves_modChan s c _

theorem ownLeaves_leaveCompleting (s : State) (c : Chan) : OwnLeaves s (s.leaveCompleting c) := by
  have out : OwnLeaves s (s.modChan c Channel.outOfCompleting) := ownLeaves_modChan s c _
  have ended (st : ChanState) : OwnLeaves s
      ((s.modChan c Channel.outOfCompleting).modChan c fun ch => { ch with state := st }) :=
    out.trans (ownLeaves_modChan _ c _)
  simp only [State.leaveCompleting]
  split
  · split
    · exact (out.trans (ownLeaves_advanceMark _)).trans (ownLeaves_chainOrIdle _ c _ _)
    · exact out.trans (ownLeaves_chainOrIdle _ c _ _)
  · exact out.trans (ownLeaves_chainOrIdle _ c _ _)
  · exact ended _
  · exact ended _
  · exact ended _

/-- R166: a record write begins where none is in progress and the ring has room. -/
theorem ownLeaves_recordWriteIssue (h : s.recordWriteIssue = some t) : OwnLeaves s t := by
  obtain ⟨c, rest, r, -, -, room, -, rfl⟩ := State.recordWriteIssue_spec h
  exact .of_line {} { begun := fun _ => .inr room } {} rfl rfl rfl rfl

theorem ownLeaves_testRecordWrite (s : State) : OwnLeaves s s.testRecordWrite := by
  unfold State.testRecordWrite
  cases h : s.recordWriteIssue with
  | none => exact .refl s
  | some t => exact ownLeaves_recordWriteIssue h

theorem ownLeaves_complete (s : State) (c : Chan) (status : PendingStatus) : OwnLeaves s (s.complete c status) := by
  have waits (v : State) : OwnLeaves v { v with ring := { v.ring with waitList := v.ring.waitList ++ [c] } } :=
    .of_line {} {}
  simp only [State.complete]
  split
  · exact ((ownLeaves_setChan s c _).trans (waits _)).trans (ownLeaves_testRecordWrite _)
  · exact (ownLeaves_setChan s c _).trans (ownLeaves_leaveCompleting _ c)

theorem ownLeaves_failChannel (s : State) (c : Chan) (code : FaultCode) (p : Option Station) :
    OwnLeaves s (s.failChannel c code p) :=
  (ownLeaves_modChan s c _ fun _ => faultCounts_channelFault (s.chan c) code p).trans (ownLeaves_complete _ c _)

theorem ownLeaves_setWait (s : State) (c : Chan) (m : Option WaitMember) : OwnLeaves s (s.setWait c m) := .of_line

theorem ownLeaves_waitLost (s : State) (c : Chan) (p : Station) : OwnLeaves s (s.waitLost c p) :=
  (ownLeaves_setWait s c none).trans (ownLeaves_failChannel _ c _ _)

theorem ownLeaves_takeReport (s : State) (c : Chan) (r : WaitReport) : OwnLeaves s (s.takeReport c r) := by
  cases r with
  | satisfied =>
      exact ((ownLeaves_setWait s c none).trans (ownLeaves_modChan _ c _)).trans (ownLeaves_complete _ c .done)
  | lost p => exact ownLeaves_waitLost s c p
  | still => exact .refl s

theorem ownLeaves_leaveWaitSet (s : State) (l : List (Chan × WaitReport)) : OwnLeaves s (s.leaveWaitSet l) := by
  unfold State.leaveWaitSet
  exact ownLeaves_foldl (fun s r => ownLeaves_setWait s r.1 none) l s

theorem ownLeaves_deliverReports (fuel : Nat) (l : List (Chan × WaitReport)) (s : State) :
    OwnLeaves s (State.deliverReports fuel l s) := by
  induction fuel generalizing l s with
  | zero => exact .refl s
  | succ n ih =>
      cases l with
      | nil => exact .refl s
      | cons r rest => exact ((ownLeaves_takeReport s r.1 r.2).trans (ownLeaves_leaveWaitSet _ _)).trans (ih _ _)

/-! ## The ten own steps -/

theorem ownLeaves_ask (s : State) (p : Station) : OwnLeaves s (s.ask p) :=
  (ownLeaves_modPeer s p _).trans (ownLeaves_queueControl _ _)

/-- R54: a credit is spent. -/
theorem ownLeaves_creditHanding {p : Station} (h : s.creditHanding p = some t) : OwnLeaves s t := by
  obtain ⟨v, rest, e, seq, next, -, -, -, -, -, -, rfl⟩ := State.creditHanding_spec h
  exact ((ownLeaves_setPeer { held := Nat.sub_le _ 1 }).trans (ownLeaves_setEntry _ v _)).trans
    (ownLeaves_queueRequest _ v)

/-- R129: a piece is issued. -/
theorem ownLeaves_issue (s : State) (v : Tag) (c : Chan) : OwnLeaves s (s.issue v c) := by
  have given := (ownLeaves_setEntry s v (some ((s.chan c).nextEntry c))).trans (ownLeaves_setChan _ c (s.chan c).issueOne)
  have tested (u : State) : OwnLeaves u u.retestReady := .of_line
  rcases PeerBus.issue_cases s v c with h | h
  · exact h ▸ (given.trans (ownLeaves_queueOutbound _ _)).trans (tested _)
  · exact h ▸ (given.trans (ownLeaves_joinWaitList _ v _)).trans (tested _)

theorem ownLeaves_entryAllocation (h : s.entryAllocation = some t) : OwnLeaves s t := by
  obtain ⟨c, rest, v, -, -, -, rfl⟩ := State.entryAllocation_spec h
  have popped : OwnLeaves s { s with readyList := rest } := .of_line
  exact popped.trans (ownLeaves_issue _ v c)

/-- R63: only the grant count of the oldest asker is raised. -/
theorem ownLeaves_granting (h : s.granting = some t) : OwnLeaves s t := by
  obtain ⟨a, rest, -, -, -, g, -, rfl⟩ := State.granting_spec h
  exact {
    blocks := {}
    line := {}
    ring := {}
    refusals := rfl
    arrivals := rfl
    peer := fun _ => {}
    grants := fun p => by
      change _ ≤ (s.setGrant a.peer _).grantCount p
      rw [State.grantCount_setGrant]
      split
      · subst_vars; exact Nat.le_add_right _ g
      · exact Nat.le_refl _
    slot := fun _ => .refl _
    faults := fun _ => id }

/-- R80, R161: the slot whose access is granted enters ACCESSING. -/
theorem ownLeaves_startAccess (s : State) (a : Access) : OwnLeaves s (s.startAccess a) := by
  have entered (i : SlotNo) : OwnLeaves s (s.modSlot i fun x => { x with state := .accessing }) := {
    blocks := {}
    line := {}
    ring := {}
    refusals := rfl
    arrivals := rfl
    peer := fun _ => {}
    grants := fun _ => Nat.le_refl _
    slot := fun j => by
      rw [State.slot_modSlot]
      split
      · subst_vars
        cases s.slot j with
        | none => exact .inl rfl
        | some x => exact .inr ⟨x, rfl, rfl⟩
      · exact .refl _
    faults := fun _ => id }
  unfold State.startAccess
  split
  · exact entered _
  · exact entered _
  all_goals exact .refl s

theorem ownLeaves_accessGrant (h : s.accessGrant = some t) : OwnLeaves s t := by
  have granted (p : LocalPort) : OwnLeaves s { s with port := p } := .of_line
  obtain ⟨-, ⟨a, rest, -, -, rfl⟩ | ⟨b, rest, -, -, rfl⟩⟩ := State.accessGrant_spec h
  · exact granted _
  · exact (granted _).trans (ownLeaves_startAccess _ b)

theorem ownLeaves_ownStep (h : s.ownStep = some t) : OwnLeaves s t := by
  rcases State.ownStep_cases h with ⟨v, h⟩ | h | ⟨c, h⟩ | h | ⟨p, h⟩ | ⟨p, h⟩ | h | h | h | h
  · obtain ⟨e, reason, -, -, -, rfl⟩ := State.absentRetire_spec h
    exact (ownLeaves_leaveWaitList s v e.peer).trans (ownLeaves_retire _ v _)
  · obtain ⟨-, rfl⟩ := State.judgeWaits_spec h
    exact (ownLeaves_leaveWaitSet s _).trans (ownLeaves_deliverReports 8 _ _)
  · obtain ⟨-, rfl⟩ := State.descriptorEnd_spec h
    exact ownLeaves_complete s c _
  · exact ownLeaves_recordWriteIssue h
  · exact ownLeaves_creditHanding h
  · obtain ⟨-, -, -, rfl⟩ := State.asking_spec h
    exact ownLeaves_ask s p
  · exact ownLeaves_entryAllocation h
  · exact ownLeaves_granting h
  · obtain ⟨-, -, -, -, rfl⟩ := State.leaveQueued_spec h
    exact ownLeaves_queueControl s .leave
  · exact ownLeaves_accessGrant h

theorem ownLeaves_settle (s : State) : OwnLeaves s s.settle :=
  State.settle_rel .refl (fun _ _ _ => .trans) (fun _ _ => ownLeaves_ownStep) s

/-- With no own step due, the state is settled. -/
theorem settle_of_no_step (h : s.ownStep = none) : s.settle = s := by
  rw [State.settle, State.settleFor, h]

/-- Settles O52: what each of the ten own steps leaves, any number of them leave; the presence of the peers is what the peer
table's laws say of it. -/
theorem ownStepsLeaveTheRestAlone : Obligations.OwnStepsLeaveTheRestAlone := by
  unfold Obligations.OwnStepsLeaveTheRestAlone
  intro s
  obtain ⟨blocks, line, ring, refusals, arrivals, peer, grants, slot, -⟩ := ownLeaves_settle s
  have presence (p : Station) := (PeerTable.peersKept_settle s).peer p
  exact ⟨settle_of_no_step, blocks.phase, blocks.latch, blocks.station, blocks.windows, blocks.changes, blocks.host,
    blocks.written, blocks.pending, refusals, ring.config, ring.producer, ring.consumer, line.slotRef, line.line,
    line.slotClock, line.clashCount, line.replyQueue, line.transmit, arrivals,
    fun p => ⟨(presence p).state, (presence p).incarnation, (presence p).mark, (presence p).silence, (peer p).served,
      (peer p).held, grants p⟩, slot⟩

end Sys2Proof.OwnSteps
end

section
/-! SUPPORT. The credit books (R52, R60), the ring within its size (R165) and the counts within their ranges (R66, R78, R86, R105):
what the operations of the machine keep of them. -/
namespace Sys2Proof.Credits

open Sys2Proof Sys2Proof.Machine Sys2Proof.Safety OwnSteps

-- Each thread of the elaborator reserves 1 GB under the memory limit of the check.
set_option Elab.async false

/-! ## Relations between states -/

/-- If the credit books, the ring and the counts are kept in `s`, they are in `t`. -/
structure BooksKept (s t : State) : Prop where
  credit : CreditBooks s → CreditBooks t
  ring : RingKept s → RingKept t
  counts : CountsKept s → CountsKept t

/-- The same, where the phase stays. -/
structure Kept (s t : State) : Prop extends BooksKept s t where
  phase : t.phase = s.phase

/-- If its credit books are kept, the part runs. -/
def Awake (s : State) : Prop := CreditBooks s → s.phase = .running

/-- From `s` to `t` nothing more is occupied, granted or held, and no transmission begins. -/
structure FewerCredits (s t : State) : Prop where
  phase : t.phase = s.phase := by rfl
  station : t.station.state = s.station.state := by rfl
  cap : t.creditCap = s.creditCap := by rfl
  transmit : s.bus.transmit = none → t.bus.transmit = none := by exact id
  slot : ∀ i, s.slot i = none → t.slot i = none := by exact fun _ => id
  grants : ∀ p, t.grantCount p ≤ s.grantCount p := by exact fun _ => Nat.le_refl _
  held : ∀ p, (t.peer p).held ≤ (s.peer p).held := by exact fun _ => Nat.le_refl _

/-- The watch notice of a window counts within its range (R86). -/
def NoticeCounts (w : Window) : Prop := ∀ n, w.notice = some n → n.count ≤ 65535

variable {r s t u : State}

theorem BooksKept.trans (h : BooksKept s t) (h' : BooksKept t u) : BooksKept s u :=
  ⟨h'.credit ∘ h.credit, h'.ring ∘ h.ring, h'.counts ∘ h.counts⟩

theorem BooksKept.refl (s : State) : BooksKept s s := ⟨id, id, id⟩

theorem Kept.refl (s : State) : Kept s s := ⟨.refl s, rfl⟩

theorem Kept.trans (h : Kept s t) (h' : Kept t u) : Kept s u :=
  ⟨h.toBooksKept.trans h'.toBooksKept, h'.phase.trans h.phase⟩

theorem kept_foldl {α : Type} {f : State → α → State} (h : ∀ s a, Kept s (f s a)) (l : List α) (s : State) :
    Kept s (l.foldl f s) := by
  induction l generalizing s with
  | nil => exact .refl s
  | cons a l ih => exact (h s a).trans (ih (f s a))

/-! ## Occupied slots and grants -/

theorem mem_allStations (p : Station) : p ∈ allStations := by revert p; decide

theorem occupied_le (s : State) : s.occupied ≤ 8 := List.countP_le_length

theorem occupied_mono (h : ∀ i, s.slot i = none → t.slot i = none) : t.occupied ≤ s.occupied := by
  refine List.countP_mono_left fun i _ occupied => ?_
  rw [Option.isSome_iff_ne_none] at occupied ⊢
  exact fun free => occupied (h i free)

theorem occupied_setSlot_le (s : State) (i : SlotNo) (x : Option Slot) : (s.setSlot i x).occupied ≤ s.occupied + 1 := by
  have rest : (allSlots.erase i).countP (fun j => ((s.setSlot i x).slot j).isSome)
      = (allSlots.erase i).countP fun j => (s.slot j).isSome := by
    refine List.countP_congr fun j hj => ?_
    have other : i ≠ j := fun same => (List.Nodup.mem_erase_iff (by decide)).1 hj |>.1 same.symm
    rw [State.slot_setSlot_of_ne s other]
  have split := List.perm_cons_erase (PeerTable.mem_allSlots i)
  rw [State.occupied, State.occupied, split.countP_eq, split.countP_eq, List.countP_cons, List.countP_cons, rest]
  split <;> omega

theorem grantSum_mono (h : ∀ p, t.grantCount p ≤ s.grantCount p) : t.grantSum ≤ s.grantSum :=
  List.sum_le_sum fun p _ => h p

theorem grantSum_setGrant (s : State) (p : Station) (n : Nat) :
    (s.setGrant p n).grantSum + s.grantCount p = s.grantSum + n := by
  have rest : (allStations.erase p).map (s.setGrant p n).grantCount = (allStations.erase p).map s.grantCount := by
    refine List.map_congr_left fun q hq => ?_
    have other : p ≠ q := fun same => (List.Nodup.mem_erase_iff (by decide)).1 hq |>.1 same.symm
    exact State.grantCount_setGrant_of_ne s other n
  rw [State.grantSum, State.grantSum, ← List.sum_map_erase _ (mem_allStations p),
    ← List.sum_map_erase s.grantCount (mem_allStations p), rest, State.grantCount_setGrant_self]
  omega

/-! ## The credit books -/

theorem creditBooks_fewer (f : FewerCredits s t) (h : CreditBooks s) : CreditBooks t where
  bound := (Nat.add_le_add (occupied_mono f.slot) (grantSum_mono f.grants)).trans h.bound
  grantCap p := f.cap ▸ (f.grants p).trans (h.grantCap p)
  heldCap p := f.cap ▸ (f.held p).trans (h.heldCap p)
  grantsOnline offline p := Nat.le_zero.1 ((f.grants p).trans (h.grantsOnline (f.station ▸ offline) p).le)
  silent quiet := by
    obtain ⟨state, transmit, held⟩ := h.silent (f.phase ▸ quiet)
    exact ⟨f.station.trans state, f.transmit transmit, fun p => Nat.le_zero.1 ((f.held p).trans (held p).le)⟩

/-- Nothing is granted or held: the books are kept, whatever is occupied and whatever C is. -/
theorem creditBooks_of_zero (grants : ∀ p, t.grantCount p = 0) (held : ∀ p, (t.peer p).held = 0)
    (silent : t.phase ≠ .running → t.station.state = none ∧ t.bus.transmit = none) : CreditBooks t where
  bound := by
    have none : t.grantSum = 0 := by simp [State.grantSum, allStations, grants]
    rw [none]
    exact occupied_le t
  grantCap p := by rw [grants]; exact Nat.zero_le _
  heldCap p := by rw [held]; exact Nat.zero_le _
  grantsOnline _ := grants
  silent quiet := ⟨(silent quiet).1, (silent quiet).2, held⟩

theorem creditCap_of_latch (h : t.latch = s.latch) : t.creditCap = s.creditCap := by
  rw [State.creditCap, State.creditCap, h]

/-- R63: what is granted fits the free capacity, and the count stays within C. -/
theorem creditBooks_granting (granted : s.granting = some t) (h : CreditBooks s) : CreditBooks t := by
  obtain ⟨a, rest, -, online, -, g, hg, rfl⟩ := State.granting_spec granted
  have isOnline : s.station.state = some .online := by simpa [State.inState] using online
  have room : g ≤ 8 - s.occupied - s.grantSum := by rw [hg]; exact (Nat.min_le_left _ _).trans (Nat.min_le_left _ _)
  have cap : g ≤ s.creditCap - s.grantCount a.peer := by
    rw [hg]; exact (Nat.min_le_left _ _).trans (Nat.min_le_right _ _)
  refine ⟨?_, fun p => ?_, h.heldCap, fun offline => absurd isOnline offline, h.silent⟩
  · change s.occupied + (s.setGrant a.peer (s.grantCount a.peer + g)).grantSum ≤ 8
    have sum := grantSum_setGrant s a.peer (s.grantCount a.peer + g)
    have bound := h.bound
    omega
  · change (s.setGrant a.peer (s.grantCount a.peer + g)).grantCount p ≤ s.creditCap
    rw [State.grantCount_setGrant]
    split
    · have before := h.grantCap a.peer
      omega
    · exact h.grantCap p

theorem fewerCredits_setGrant {p : Station} {n : Nat} (h : n ≤ s.grantCount p) : FewerCredits s (s.setGrant p n) where
  grants q := by
    rw [State.grantCount_setGrant]
    split
    · subst_vars; exact h
    · exact Nat.le_refl _

/-- R65, R72: a counted credit is spent as a slot is filled. -/
theorem creditBooks_spend {p : Station} (granted : 1 ≤ s.grantCount p) (i : SlotNo) (x : Slot) (h : CreditBooks s) :
    CreditBooks ((s.setGrant p (s.grantCount p - 1)).setSlot i (some x)) := by
  let v := s.setGrant p (s.grantCount p - 1)
  have kept : CreditBooks v := creditBooks_fewer (fewerCredits_setGrant (Nat.sub_le _ 1)) h
  refine ⟨?_, kept.grantCap, kept.heldCap, kept.grantsOnline, kept.silent⟩
  change (v.setSlot i (some x)).occupied + v.grantSum ≤ 8
  have slots : (v.setSlot i (some x)).occupied ≤ s.occupied + 1 := occupied_setSlot_le v i (some x)
  have sum := grantSum_setGrant s p (s.grantCount p - 1)
  have bound := h.bound
  change v.grantSum + _ = _ at sum
  omega

/-! ## The ring and the counts -/

/-- R165, R166: a record write that has begun has its place. -/
theorem ringKept_left (h : RingLeft s.ring t.ring) (kept : RingKept s) : RingKept t := by
  have fill : t.ring.fill = s.ring.fill := by rw [RingUnit.fill, RingUnit.fill, h.producer, h.consumer]
  unfold RingKept at kept ⊢
  rw [h.config, fill]
  cases config : s.ring.config with
  | none =>
      rw [config] at kept
      obtain ⟨empty, none⟩ := kept
      refine ⟨empty, Option.not_isSome_iff_eq_none.1 fun begun => ?_⟩
      rcases h.begun begun with before | room
      · rw [none] at before; cases before
      · rw [RingUnit.hasRoom, config] at room; cases room
  | some g =>
      rw [config] at kept
      obtain ⟨size, aligned, fits, full, place⟩ := kept
      refine ⟨size, aligned, fits, full, fun begun => (h.begun begun).elim place fun room => ?_⟩
      rw [RingUnit.hasRoom, config] at room
      exact of_decide_eq_true room

/-- What is counted stays within its range, block by block. -/
theorem countsKept_of (h : CountsKept s)
    (served : ∀ p, (s.peer p).served.length ≤ 4 → (t.peer p).served.length ≤ 4 := by exact fun _ => id)
    (refusals : s.credit.refusals ≤ 4 → t.credit.refusals ≤ 4 := by exact id)
    (notices : ∀ w, NoticeCounts (s.window w) → NoticeCounts (t.window w) := by exact fun _ => id)
    (faults : ∀ c, FaultCounts (s.chan c) → FaultCounts (t.chan c) := by exact fun _ => id) : CountsKept t :=
  ⟨fun p => served p (h.served p), refusals h.refusals, fun w => notices w (h.notices w), fun c => faults c (h.faults c)⟩

/-! ## Operations that leave all three -/

/-- What the part's own steps leave keeps the books, but for what is granted. -/
theorem kept_of_own_credit (h : OwnLeaves s t) (credit : CreditBooks s → CreditBooks t) : Kept s t where
  credit := credit
  ring := ringKept_left h.ring
  counts books := countsKept_of books (fun p => by rw [(h.peer p).served]; exact id) (by rw [h.refusals]; exact id)
    (fun w => by rw [State.window, State.window, h.blocks.windows]; exact id) h.faults
  phase := h.blocks.phase

theorem slot_none_of_left {x y : Option Slot} (h : SlotLeft x y) (free : x = none) : y = none := by
  rcases h with rfl | ⟨z, rfl, -⟩
  · exact free
  · cases free

theorem kept_of_own (h : OwnLeaves s t) (grants : t.credit.grants = s.credit.grants := by simp) : Kept s t :=
  kept_of_own_credit h (creditBooks_fewer
    { phase := h.blocks.phase
      station := by rw [h.blocks.station]
      cap := creditCap_of_latch h.blocks.latch
      transmit := fun none => h.line.transmit.trans none
      slot := fun i => slot_none_of_left (h.slot i)
      grants := fun p => by rw [State.grantCount, grants, State.grantCount]
      held := fun p => (h.peer p).held })

/-- A change of other blocks than those that the books read. -/
theorem Kept.of_blocks (transmit : s.bus.transmit = none → t.bus.transmit = none := by exact id)
    (phase : t.phase = s.phase := by rfl) (latch : t.latch = s.latch := by rfl)
    (station : t.station.state = s.station.state := by rfl) (inbound : t.inbound.slots = s.inbound.slots := by rfl)
    (grants : t.credit.grants = s.credit.grants := by rfl) (refusals : t.credit.refusals = s.credit.refusals := by rfl)
    (peers : t.peers = s.peers := by rfl) (windows : t.windows = s.windows := by rfl)
    (channels : t.channels = s.channels := by rfl) (ring : t.ring = s.ring := by rfl) : Kept s t where
  credit := creditBooks_fewer
    { phase, station, transmit
      cap := creditCap_of_latch latch
      slot := fun i => by rw [State.slot, State.slot, inbound]; exact id
      grants := fun p => by rw [State.grantCount, State.grantCount, grants]
      held := fun p => by rw [State.peer, State.peer, peers] }
  ring := ringKept_left (.of_eq ring)
  counts books := countsKept_of books (fun p => by rw [State.peer, State.peer, peers]; exact id) (by rw [refusals]; exact id)
    (fun w => by rw [State.window, State.window, windows]; exact id)
    (fun c => by rw [State.chan, State.chan, channels]; exact id)
  phase := phase

/-! ## The part's own steps -/

theorem kept_absentRetire {v : Tag} (h : s.absentRetire v = some t) : Kept s t := by
  obtain ⟨e, reason, -, -, -, rfl⟩ := State.absentRetire_spec h
  exact kept_of_own ((ownLeaves_leaveWaitList s v e.peer).trans (ownLeaves_retire _ v _))

theorem kept_judgeWaits (h : s.judgeWaits = some t) : Kept s t := by
  obtain ⟨-, rfl⟩ := State.judgeWaits_spec h
  exact kept_of_own ((ownLeaves_leaveWaitSet s _).trans (ownLeaves_deliverReports 8 _ _))

theorem kept_descriptorEnd {c : Chan} (h : s.descriptorEnd c = some t) : Kept s t := by
  obtain ⟨-, rfl⟩ := State.descriptorEnd_spec h
  exact kept_of_own (ownLeaves_complete s c _)

theorem kept_recordWriteIssue (h : s.recordWriteIssue = some t) : Kept s t := by
  have own := ownLeaves_recordWriteIssue h
  obtain ⟨c, rest, x, -, -, -, -, rfl⟩ := State.recordWriteIssue_spec h
  exact kept_of_own own rfl

theorem kept_creditHanding {p : Station} (h : s.creditHanding p = some t) : Kept s t := by
  have own := ownLeaves_creditHanding h
  obtain ⟨v, rest, e, seq, next, -, -, -, -, -, -, rfl⟩ := State.creditHanding_spec h
  exact kept_of_own own rfl

theorem kept_ask (s : State) (p : Station) : Kept s (s.ask p) := kept_of_own (ownLeaves_ask s p) rfl

theorem kept_asking {p : Station} (h : s.asking p = some t) : Kept s t := by
  obtain ⟨-, -, -, rfl⟩ := State.asking_spec h
  exact kept_ask s p

theorem kept_entryAllocation (h : s.entryAllocation = some t) : Kept s t := by
  have own := ownLeaves_entryAllocation h
  obtain ⟨c, rest, v, -, -, -, rfl⟩ := State.entryAllocation_spec h
  exact kept_of_own own

theorem kept_granting (h : s.granting = some t) : Kept s t :=
  kept_of_own_credit (ownLeaves_granting h) (creditBooks_granting h)

theorem kept_leaveQueued (h : s.leaveQueued = some t) : Kept s t := by
  obtain ⟨-, -, -, -, rfl⟩ := State.leaveQueued_spec h
  exact kept_of_own (ownLeaves_queueControl s .leave) rfl

theorem kept_accessGrant (h : s.accessGrant = some t) : Kept s t := by
  have own := ownLeaves_accessGrant h
  obtain ⟨-, ⟨a, rest, -, -, rfl⟩ | ⟨b, rest, -, -, rfl⟩⟩ := State.accessGrant_spec h
  · exact kept_of_own own rfl
  · exact kept_of_own own

theorem kept_ownStep (h : s.ownStep = some t) : Kept s t := by
  rcases State.ownStep_cases h with ⟨v, h⟩ | h | ⟨c, h⟩ | h | ⟨p, h⟩ | ⟨p, h⟩ | h | h | h | h
  · exact kept_absentRetire h
  · exact kept_judgeWaits h
  · exact kept_descriptorEnd h
  · exact kept_recordWriteIssue h
  · exact kept_creditHanding h
  · exact kept_asking h
  · exact kept_entryAllocation h
  · exact kept_granting h
  · exact kept_leaveQueued h
  · exact kept_accessGrant h

theorem kept_settle (s : State) : Kept s s.settle :=
  State.settle_rel .refl (fun _ _ _ => .trans) (fun _ _ => kept_ownStep) s

/-! ## Changes of one place -/

theorem kept_host (s : State) (x : HostPort) : Kept s { s with host := x } := .of_blocks

theorem kept_answer (s : State) (code : Byte) (x : ResultCode) : Kept s (s.answer code x) := .of_blocks

theorem kept_activityEnd (s : State) (x : SlotRef) : Kept s (s.activityEnd x) := .of_blocks

theorem kept_countTo (s : State) (n : Nat) : Kept s (s.countTo n) := .of_blocks

theorem kept_inQueue (s : State) (a : Access) : Kept s (s.queueInbound a) := .of_blocks

theorem kept_queueReply (s : State) (x : QueuedReply) : Kept s (s.queueReply x) := .of_blocks

theorem kept_setEntry (s : State) (v : Tag) (x : Option Entry) : Kept s (s.setEntry v x) := .of_blocks

theorem kept_retire (s : State) (v : Tag) (o : PieceOutcome) : Kept s (s.retire v o) := kept_of_own (ownLeaves_retire s v o)

theorem kept_setChan (s : State) (c : Chan) (x : Channel)
    (h : FaultCounts (s.chan c) → FaultCounts x := by exact id) : Kept s (s.setChan c x) :=
  kept_of_own (ownLeaves_setChan s c x h)

theorem kept_modChan (s : State) (c : Chan) (f : Channel → Channel)
    (h : FaultCounts (s.chan c) → FaultCounts (f (s.chan c)) := by exact id) : Kept s (s.modChan c f) :=
  kept_setChan s c _ h

theorem kept_retestReady (s : State) : Kept s s.retestReady := .of_blocks

theorem kept_setWait (s : State) (c : Chan) (m : Option WaitMember) : Kept s (s.setWait c m) := .of_blocks

theorem kept_complete (s : State) (c : Chan) (status : PendingStatus) : Kept s (s.complete c status) :=
  kept_of_own (ownLeaves_complete s c status)

theorem kept_failChannel (s : State) (c : Chan) (code : FaultCode) (p : Option Station) :
    Kept s (s.failChannel c code p) := kept_of_own (ownLeaves_failChannel s c code p)

theorem kept_testRecordWrite (s : State) : Kept s s.testRecordWrite := kept_of_own (ownLeaves_testRecordWrite s)

theorem kept_queuePresence (s : State) : Kept s s.queuePresence := kept_of_own (ownLeaves_queuePresence s)

theorem kept_failWaitsOn (s : State) (p : Station) : Kept s (s.failWaitsOn p) := by
  refine kept_foldl (fun s c => ?_) allChans s
  split
  · split
    · exact kept_of_own (ownLeaves_waitLost s c p)
    · exact .refl s
  · exact .refl s

theorem kept_withdrawControl (s : State) (f : Control → Bool) : Kept s (s.withdrawControl f) :=
  .of_blocks (transmit := fun none => by simp [State.withdrawControl, none])

theorem kept_withdrawSending (s : State) (v : Tag) : Kept s (s.withdrawSending v) :=
  .of_blocks (transmit := fun none => by simp [State.withdrawSending, none])

theorem kept_withdrawRequest (s : State) (v : Tag) : Kept s (s.withdrawRequest v) := .of_blocks

/-- A change of one peer entry. -/
theorem countsKept_modPeer (s : State) (p : Station) (f : PeerEntry → PeerEntry)
    (served : (s.peer p).served.length ≤ 4 → (f (s.peer p)).served.length ≤ 4) (h : CountsKept s) :
    CountsKept (s.modPeer p f) := by
  refine countsKept_of h (served := fun q => ?_)
  rw [State.peer_modPeer]
  split
  · subst_vars; exact served
  · exact id

/-- A change of one peer entry that raises no held credits. -/
theorem kept_modPeer (s : State) (p : Station) (f : PeerEntry → PeerEntry)
    (held : (f (s.peer p)).held ≤ (s.peer p).held := by exact Nat.le_refl _)
    (served : (s.peer p).served.length ≤ 4 → (f (s.peer p)).served.length ≤ 4 := by exact id) : Kept s (s.modPeer p f) where
  credit := by
    have fewer (q : Station) : ((s.modPeer p f).peer q).held ≤ (s.peer q).held := by
      rw [State.peer_modPeer]
      split
      · subst_vars; exact held
      · exact Nat.le_refl _
    exact creditBooks_fewer { held := fewer }
  ring := id
  counts := countsKept_modPeer s p f served
  phase := rfl

/-- While the part runs, held credits may be raised up to C. -/
theorem kept_modPeer_awake (awake : Awake r) (h : Kept r s) (p : Station) (f : PeerEntry → PeerEntry)
    (held : (s.peer p).held ≤ s.creditCap → (f (s.peer p)).held ≤ s.creditCap)
    (served : (f (s.peer p)).served = (s.peer p).served := by rfl) : Kept r (s.modPeer p f) where
  credit hr := by
    have before := h.credit hr
    refine ⟨before.bound, before.grantCap, fun q => ?_, before.grantsOnline, fun quiet => absurd (awake hr) ?_⟩
    · rw [State.peer_modPeer]
      split
      · exact held (before.heldCap p)
      · exact before.heldCap q
    · rwa [← h.phase]
  ring := h.ring
  counts := countsKept_modPeer s p f (by rw [served]; exact id) ∘ h.counts
  phase := h.phase

theorem kept_setGrant {p : Station} {n : Nat} (h : n ≤ s.grantCount p) : Kept s (s.setGrant p n) where
  credit := creditBooks_fewer (fewerCredits_setGrant h)
  ring := id
  counts books := countsKept_of books
  phase := rfl

theorem kept_refusals (s : State) (n : Nat) (h : s.credit.refusals ≤ 4 → n ≤ 4) :
    Kept s { s with credit := { s.credit with refusals := n } } where
  credit := creditBooks_fewer {}
  ring := id
  counts books := countsKept_of books (refusals := h)
  phase := rfl

/-- A change of one inbound slot that leaves it FREE if it is. -/
theorem kept_setSlot {i : SlotNo} {x : Option Slot} (h : s.slot i = none → x = none) : Kept s (s.setSlot i x) where
  credit := by
    have free (j : SlotNo) (hj : s.slot j = none) : (s.setSlot i x).slot j = none := by
      rw [State.slot_setSlot]
      split
      · subst_vars; exact h hj
      · exact hj
    exact creditBooks_fewer { slot := free }
  ring := id
  counts books := countsKept_of books
  phase := rfl

theorem kept_setWindowAt (s : State) (w : WindowNo) (x : Window) (h : NoticeCounts (s.window w) → NoticeCounts x) :
    Kept s (s.setWindowAt w x) where
  credit := creditBooks_fewer {}
  ring := id
  counts books := by
    refine countsKept_of books (notices := fun v => ?_)
    rw [State.window_setWindowAt]
    split
    · subst_vars; exact h
    · exact id
  phase := rfl

theorem noticeCounts_of_none {w : Window} (h : w.notice = none) : NoticeCounts w := fun n hn => by rw [h] at hn; cases hn

/-! ## The inbound server (R66, R78, R83, R86) -/

theorem kept_replySlot (s : State) (i : SlotNo) (status : ReplyStatus) : Kept s (s.replySlot i status) := by
  unfold State.replySlot
  split
  · exact .refl s
  · rename_i x hx
    exact (kept_setSlot fun free => by rw [hx] at free; cases free).trans (kept_queueReply _ _)

/-- R78: the oldest pair leaves a full record. -/
theorem length_recordPair {l : List ServedPair} (h : l.length ≤ 4) (x : ServedPair) : (recordPair l x).length ≤ 4 := by
  unfold recordPair
  split
  · rw [List.length_append, List.length_drop, List.length_singleton]
    omega
  · have room : ¬ 4 ≤ l.length := ‹_›
    rw [List.length_append, List.length_singleton]
    omega

theorem kept_recordServed (s : State) (x : Slot) (status : ReplyStatus) : Kept s (s.recordServed x status) := by
  unfold State.recordServed
  split
  · exact kept_modPeer s _ _ (Nat.le_refl _) fun h => length_recordPair h _
  · exact .refl s

theorem kept_checkWindow {i : SlotNo} (x : Slot) (occupied : s.slot i ≠ none) : Kept s (s.checkWindow i x) := by
  have refuse (status : ReplyStatus) : Kept s (s.refuseSlot i x status) :=
    (kept_recordServed s x status).trans (kept_replySlot _ i status)
  simp only [State.checkWindow]
  split
  · exact refuse _
  split
  · exact refuse _
  · exact (kept_setSlot fun free => absurd free occupied).trans (kept_inQueue _ _)

theorem kept_checkArrival {i : SlotNo} (x : Slot) (occupied : s.slot i ≠ none) : Kept s (s.checkArrival i x) := by
  unfold State.checkArrival
  split
  · exact kept_checkWindow x occupied
  split
  · exact kept_replySlot s i _
  split
  · exact kept_setSlot fun free => absurd free occupied
  · exact kept_checkWindow x occupied

theorem kept_prune (s : State) (p : Station) (low : Byte) : Kept s (s.prune p low) :=
  kept_modPeer s p _ (Nat.le_refl _) (List.length_filter_le _ _).trans

/-- R65, R72: a counted credit is spent, and a slot is filled. -/
theorem kept_takeSlot (x : Request) (i : SlotNo) (granted : 1 ≤ s.grantCount x.source) : Kept s (s.takeSlot x i) := by
  let v := (s.setGrant x.source (s.grantCount x.source - 1)).setSlot i (some x.slot)
  have filled : Kept s v :=
    { credit := creditBooks_spend granted i x.slot
      ring := id
      counts := fun books => countsKept_of books
      phase := rfl }
  have arrived : Kept v { v with inbound := { v.inbound with arrivals := v.inbound.arrivals ++ [i] } } := .of_blocks
  have occupied : v.slot i ≠ none := by simp [v]
  exact ((filled.trans arrived).trans (kept_prune _ x.source x.low)).trans (kept_checkArrival x.slot occupied)

/-- R66: four refusal places. -/
theorem kept_refuse (s : State) (x : Request) : Kept s (s.refuse x) := by
  unfold State.refuse
  split
  · exact (kept_refusals s _ fun _ => ‹s.credit.refusals < 4›).trans (kept_queueReply _ _)
  · exact .refl s

theorem kept_takeRequest (s : State) (x : Request) : Kept s (s.takeRequest x) := by
  unfold State.takeRequest
  split
  · have admitted := ‹(s.inState .online && decide (1 ≤ s.grantCount x.source)) = true›
    split
    · exact kept_takeSlot x _ (of_decide_eq_true (Bool.and_eq_true_iff.1 admitted).2)
    · exact .refl s
  · exact kept_refuse s x

/-- R86: a watch notice stops counting at 65535. -/
theorem noticeCounts_noticed {w : Window} (p : Station) (offset : Nat) (h : NoticeCounts w) :
    NoticeCounts (w.noticed p offset) := by
  unfold Window.noticed
  split
  · intro n hn
    cases hn
    split
    · exact Nat.le_add_left 1 65534
    · exact Nat.min_le_left _ _
  · exact h

theorem kept_notice (s : State) (x : Slot) (status : ReplyStatus) : Kept s (s.notice x status) := by
  unfold State.notice
  split
  · exact kept_setWindowAt s _ _ (noticeCounts_noticed _ _)
  · exact .refl s

theorem kept_endSlotAccess (s : State) (i : SlotNo) (first : Nat) (e : AccessEnd) :
    Kept s (s.endSlotAccess i first e) := by
  unfold State.endSlotAccess
  split
  · exact .refl s
  · rename_i x hx
    have taken (y : Slot) : Kept s (s.setSlot i (some y)) := kept_setSlot fun free => by rw [hx] at free; cases free
    have report (y : Slot) (status : ReplyStatus) (u : State) : Kept u ((u.recordServed y status).notice y status) :=
      (kept_recordServed u y status).trans (kept_notice _ y status)
    have answer (status : ReplyStatus) (l : List SlotNo) (u : State) :
        Kept u (l.foldl (fun s j => s.replySlot j status) (u.replySlot i status)) :=
      (kept_replySlot u i status).trans (kept_foldl (fun v j => kept_replySlot v j status) l _)
    exact ((taken _).trans (report _ _ _)).trans (answer _ _ _)

theorem kept_freeSlotAt (s : State) (i : SlotNo) : Kept s (s.freeSlotAt i) := by
  have left (u : State) (l : List SlotNo) : Kept u { u with inbound := { u.inbound with arrivals := l } } := .of_blocks
  exact (kept_setSlot fun _ => rfl).trans (left _ _)

theorem kept_modSlot (s : State) (i : SlotNo) (f : Slot → Slot) : Kept s (s.modSlot i f) :=
  kept_setSlot fun free => by rw [free]; rfl

/-! ## The channel engine and the ends of accesses (R105, R165) -/

theorem kept_beginFetch (s : State) (c : Chan) (a : Nat) : Kept s (s.beginFetch c a) :=
  kept_of_own (ownLeaves_beginFetch s c a)

theorem kept_endFetch (s : State) (c : Chan) (data : Option (List Byte)) : Kept s (s.endFetch c data) := by
  have begun (u : State) (d : List Byte) : Kept u (u.beginDescriptor c d) := by
    unfold State.beginDescriptor
    split
    · exact (kept_modChan u c _).trans (kept_retestReady _)
    · exact (kept_modChan u c _).trans (kept_setWait _ c _)
  simp only [State.endFetch]
  split
  · exact .refl s
  split
  · split
    · exact (kept_setChan s c _ fun _ => faultCounts_channelFault _ _ _).trans (kept_complete _ c _)
    all_goals exact kept_failChannel s c _ _
  have copied (d : List Byte) : Kept s (s.setChan c { s.chan c with copy := some d }) := kept_setChan s c _
  split
  · exact (copied _).trans (kept_complete _ c _)
  · exact (copied _).trans (kept_complete _ c _)
  split
  · exact (copied _).trans (begun _ _)
  · exact (copied _).trans (kept_failChannel _ c _ _)

/-- R165, R167: the record written was the one in progress, and its place is taken. -/
theorem ringKept_produced {c : Chan} (h : s.ring.inProgress = some c) (kept : RingKept s) :
    RingKept { s with ring := { s.ring with inProgress := none, producer := s.ring.producer + 1#16 } } := by
  unfold RingKept at kept ⊢
  cases config : s.ring.config with
  | none => rw [config, h] at kept; cases kept.2
  | some g =>
      rw [config, h] at kept
      obtain ⟨size, aligned, fits, -, place⟩ := kept
      have room : s.ring.fill < g.size := place rfl
      have small : g.size ≤ 256 := by unfold isRingSize at size; omega
      refine ⟨size, aligned, fits, ?_, nofun⟩
      unfold RingUnit.fill at room ⊢
      dsimp only
      bv_omega

theorem kept_ring (s : State) (x : RingUnit) (ring : RingKept s → RingKept { s with ring := x }) :
    Kept s { s with ring := x } where
  credit := creditBooks_fewer {}
  ring := ring
  counts books := countsKept_of books
  phase := rfl

theorem kept_loseRecord (s : State) (c : Chan) : Kept s (s.loseRecord c) :=
  kept_modChan s c _ fun _ => faultCounts_channelFault (s.chan c) .ringWrite none

/-- R167, R168: the end of a record write. -/
theorem kept_endRecord (s : State) (c : Chan) (ok : Bool) : Kept s (s.endRecord c ok) := by
  have lost : RingLeft s.ring { s.ring with inProgress := none } := { begun := nofun }
  unfold State.endRecord
  split
  · split
    · exact ((kept_ring s _ (ringKept_produced ‹_›)).trans (kept_of_own (ownLeaves_leaveCompleting _ c))).trans
        (kept_testRecordWrite _)
    · exact ((kept_ring s _ (ringKept_left lost)).trans (kept_loseRecord _ c)).trans (kept_testRecordWrite _)
  · exact .refl s

/-- R169: the consumer moves up to the producer at most. -/
theorem ringKept_consumed {v : Word} (accepted : s.ring.accepts v = true) (kept : RingKept s) :
    RingKept { s with ring := { s.ring with consumer := v } } := by
  have fewer : ({ s.ring with consumer := v } : RingUnit).fill ≤ s.ring.fill := by
    have within := of_decide_eq_true accepted
    unfold RingUnit.fill at within ⊢
    dsimp only
    bv_omega
  unfold RingKept at kept ⊢
  dsimp only
  cases config : s.ring.config with
  | none =>
      rw [config] at kept
      exact ⟨Nat.le_zero.1 (fewer.trans kept.1.le), kept.2⟩
  | some g =>
      rw [config] at kept
      obtain ⟨size, aligned, fits, full, place⟩ := kept
      exact ⟨size, aligned, fits, fewer.trans full, fun begun => fewer.trans_lt (place begun)⟩

/-- R164: a ring newly set is empty. -/
theorem ringKept_set (s : State) {base size : Nat} (sizes : isRingSize size) (aligned : base % 16 = 0)
    (fits : base + 16 * size ≤ 0x1000000) : RingKept { s with ring := { s.ring with
      config := some { base, size }, producer := 0#16, consumer := 0#16 } } := by
  have positive : 0 < size := by unfold isRingSize at sizes; omega
  have empty : (0#16 - 0#16 : Word).toNat = 0 := by decide
  exact ⟨sizes, aligned, fits, empty.le.trans (Nat.zero_le size), fun _ => empty.trans_lt positive⟩

/-! ## Peer cleanup and the update by a heard message (R38 to R48) -/

theorem kept_cleanupEntry (s : State) (why : FaultCode) (v : Tag) (e : Entry) : Kept s (s.cleanupEntry why v e) := by
  unfold State.cleanupEntry
  split
  · exact (kept_of_own (ownLeaves_leaveWaitList s v e.peer)).trans (kept_retire _ v _)
  · split
    · exact (kept_withdrawSending s v).trans (kept_retire _ v _)
    · exact (kept_withdrawRequest s v).trans (kept_retire _ v _)
  · exact kept_retire s v _
  · exact kept_setEntry s v _
  · exact .refl s

theorem kept_cleanupCredit (s : State) (p : Station) : Kept s (s.cleanupCredit p) := by
  have stopped : Kept s (s.modPeer p fun q => { q with held := 0, asked := false, askTimer := .stopped }) :=
    kept_modPeer s p _ (Nat.zero_le _)
  have asks (u : State) (l : List Asker) : Kept u { u with credit := { u.credit with askList := l } } := .of_blocks
  exact ((stopped.trans (kept_withdrawControl _ _)).trans (kept_setGrant (Nat.zero_le _))).trans (asks _ _)

theorem kept_cleanup (s : State) (p : Station) (why : FaultCode) : Kept s (s.cleanup p why) := by
  have entries : Kept s (State.cleanupEntries p why 64 s) :=
    PeerBus.cleanupEntries_keeps (P := Kept s) (fun t h => h.trans (kept_settle t))
      (fun t why v e _ h => h.trans (kept_cleanupEntry t why v e)) p why 64 (.refl s)
  have forgotten (u : State) : Kept u (u.modPeer p fun q => { q with served := [] }) :=
    kept_modPeer u p _ (Nat.le_refl _) fun _ => Nat.zero_le _
  have stale (u : State) : Kept u (u.markStale p) := kept_foldl (fun u i => kept_modSlot u i _) allSlots u
  exact ((entries.trans (kept_cleanupCredit _ p)).trans (forgotten _)).trans (stale _)

theorem kept_addChange (s : State) (p : Station) : Kept s (s.addChange p) := .of_blocks

theorem kept_hearPresent (s : State) (p : Station) (inc : Byte) (mark : Option Word) :
    Kept s (s.hearPresent p inc mark) := kept_modPeer s p _

theorem kept_presenceUpdate (s : State) (p : Station) (inc : Byte) (mark : Option Word) (isJoin : Bool) :
    Kept s (s.presenceUpdate p inc mark isJoin) := by
  have heard (u : State) : Kept u ((u.hearPresent p inc mark).addChange p) :=
    (kept_hearPresent u p inc mark).trans (kept_addChange _ p)
  unfold State.presenceUpdate
  split
  · exact heard s
  · exact heard s
  split
  · exact kept_modPeer s p _
  · exact ((kept_cleanup s p _).trans (heard _)).trans (kept_failWaitsOn _ p)

theorem kept_leaveUpdate (s : State) (p : Station) (inc : Byte) (mark : Word) : Kept s (s.leaveUpdate p inc mark) := by
  have absent := ((kept_cleanup s p .peerLeft).trans (kept_modPeer _ p fun q =>
    { q with state := .absent .left, incarnation := some inc, mark := some mark, silence := .stopped })).trans
      (kept_addChange _ p)
  exact iteInduction (motive := Kept s) (fun _ => absent) fun _ => absent.trans (kept_failWaitsOn _ p)

theorem kept_silenceUpdate (s : State) (p : Station) : Kept s (s.silenceUpdate p) :=
  (((kept_cleanup s p .peerLost).trans (kept_modPeer _ p _)).trans (kept_addChange _ p)).trans (kept_failWaitsOn _ p)

/-! ## Credits and entries while the part runs (R52, R58, R62) -/

theorem kept_returnCredit (awake : Awake r) (h : Kept r s) (p : Station) : Kept r (s.returnCredit p) :=
  kept_modPeer_awake awake h p _ fun held => by dsimp only; split <;> omega

theorem kept_takeGrant (awake : Awake r) (h : Kept r s) (p : Station) (n : Nat) (echo : Byte) :
    Kept r (s.takeGrant p n echo) := by
  unfold State.takeGrant
  split
  · exact (kept_modPeer_awake awake h p _ fun _ => Nat.min_le_left _ _).trans (kept_withdrawControl _ _)
  · exact h

theorem kept_takeAsk (s : State) (p : Station) (n : Nat) : Kept s (s.takeAsk p n) := by
  have joined (u : State) : Kept u (u.joinAskList p n) := .of_blocks
  unfold State.takeAsk
  split
  · exact joined s
  split
  · split
    · exact .refl s
    · exact (kept_setGrant (Nat.zero_le _)).trans (joined _)
  · exact .refl s

theorem kept_joinWaitList (s : State) (v : Tag) (p : Station) : Kept s (s.joinWaitList v p) :=
  kept_of_own (ownLeaves_joinWaitList s v p)

theorem kept_modEntry (s : State) (v : Tag) (f : Entry → Entry) : Kept s (s.modEntry v f) := kept_setEntry s v _

theorem kept_queueOutbound (s : State) (a : Access) : Kept s (s.queueOutbound a) := .of_blocks

theorem kept_leaveForReply (awake : Awake r) (h : Kept r s) (v : Tag) (e : Entry) : Kept r (s.leaveForReply v e) := by
  unfold State.leaveForReply
  split
  · exact h.trans (kept_of_own (ownLeaves_leaveWaitList s v e.peer))
  · exact kept_returnCredit awake (h.trans (kept_withdrawRequest s v)) e.peer
  · exact h.trans (kept_modEntry s v _)
  · exact h
  · exact h

theorem kept_settleRead (s : State) (v : Tag) (e : Entry) (payload : List Byte) : Kept s (s.settleRead v e payload) := by
  unfold State.settleRead
  split
  · exact kept_retire s v _
  · exact (kept_modEntry s v _).trans (kept_queueOutbound _ _)

theorem kept_settleNoCredit (s : State) (v : Tag) (e : Entry) : Kept s (s.settleNoCredit v e) := by
  have lost : Kept s (s.modPeer e.peer fun q => { q with held := 0 }) := kept_modPeer s e.peer _ (Nat.zero_le _)
  simp only [State.settleNoCredit]
  split
  · exact lost.trans (kept_retire _ v _)
  · exact lost.trans (kept_joinWaitList _ v _)

theorem kept_takeReply (awake : Awake r) (h : Kept r s) (x : ReplyHeard) : Kept r (s.takeReply x) := by
  unfold State.takeReply
  split
  · exact h
  rename_i e _
  split
  · have left := kept_leaveForReply awake h x.tag e
    simp only [State.settleReply]
    split
    · split
      · exact left.trans (kept_retire _ _ _)
      · exact left.trans (kept_settleRead _ _ e _)
    · exact left.trans (kept_retire _ _ _)
    · exact left.trans (kept_retire _ _ _)
    · exact left.trans (kept_retire _ _ _)
    · exact left.trans (kept_settleNoCredit _ _ e)
  · exact h

theorem kept_deliverReply (awake : Awake r) (h : Kept r s) (p : Station) (inc : Byte) (kind : ReqKind)
    (tag seq echo status : Byte) (payload : List Byte) : Kept r (s.deliverReply p inc kind tag seq echo status payload) := by
  have present := h.trans (kept_presenceUpdate s p inc none false)
  unfold State.deliverReply
  split
  · exact present
  · exact kept_takeReply awake present _

theorem kept_markAborting (s : State) (c : Chan) : Kept s (s.markAborting c) := by
  refine kept_foldl (fun s v => ?_) allTags s
  split
  · exact .refl s
  split
  · dsimp only
    split
    · exact (kept_setEntry s v _).trans (kept_of_own (ownLeaves_leaveWaitList _ v _))
    · exact kept_setEntry s v _
  · exact .refl s

theorem kept_abortEntry (awake : Awake r) (h : Kept r s) (c : Chan) (v : Tag) : Kept r (s.abortEntry c v) := by
  unfold State.abortEntry
  split
  · exact h
  split
  · split
    · exact h.trans (kept_retire s v _)
    · split
      · exact h
      · exact (kept_returnCredit awake (h.trans (kept_withdrawRequest s v)) _).trans (kept_retire _ v _)
    all_goals exact h
  · exact h

theorem kept_abortEntries (awake : Awake r) (h : Kept r s) (c : Chan) : Kept r (s.abortEntries c) := by
  have each (l : List Tag) : ∀ {u : State}, Kept r u → Kept r (l.foldl (fun u v => (u.abortEntry c v).settle) u) := by
    induction l with
    | nil => exact id
    | cons v l ih => exact fun hu => ih ((kept_abortEntry awake hu c v).trans (kept_settle _))
  exact each allTags (h.trans (kept_markAborting s c))

theorem kept_abortChannel (awake : Awake s) (c : Chan) : Kept s (s.abortChannel c).1 := by
  have running : Kept s (s.abortRunning c) := by
    have flagged := (kept_modChan s c fun ch =>
      { ch with flag := .aborting, state := if ch.state = .running then .draining else ch.state }).trans
        (kept_retestReady _)
    exact (kept_abortEntries awake flagged c).trans (kept_settle _)
  have completing : Kept s (s.abortCompleting c).1 := by
    simp only [State.abortCompleting]
    split
    · exact kept_setChan s c _
    · exact .refl s
  unfold State.abortChannel
  dsimp only
  split
  case h_3 => exact kept_setChan s c _
  case h_6 | h_7 => dsimp only; exact running
  case h_12 =>
    exact (((kept_setWait s c none).trans (kept_setChan _ c _)).trans (kept_complete _ c _)).trans (kept_settle _)
  case h_13 => exact completing
  all_goals exact .refl s

theorem kept_endLoad (s : State) (v : Tag) (e : Entry) (o : AccessEnd) : Kept s (s.endLoad v e o) := by
  unfold State.endLoad
  split
  · exact kept_retire s v _
  · exact kept_retire s v _
  split
  · exact kept_retire s v _
  · exact (kept_setEntry s v _).trans (kept_joinWaitList _ v _)

theorem kept_expireReply (s : State) (v : Tag) (e : Entry) : Kept s (s.expireReply v e) := by
  unfold State.expireReply
  split
  · exact kept_retire s v _
  split
  · exact kept_joinWaitList s v _
  · exact kept_retire s v _

/-! ## Station states, isolation and resets -/

/-- Entering a station state; grants stand in ONLINE only. -/
theorem kept_enterStation (awake : Awake r) (h : Kept r s) {st : StationState}
    (grants : CreditBooks s → st ≠ .online → ∀ p, s.grantCount p = 0) : Kept r (s.enterStation st) where
  credit hr := by
    have before := h.credit hr
    refine ⟨before.bound, before.grantCap, before.heldCap, fun offline => grants before fun online => ?_, fun quiet => ?_⟩
    · exact offline (congrArg some online)
    · exact absurd ((h.phase).trans (awake hr)) quiet
  ring := h.ring
  counts hr := countsKept_of (h.counts hr)
  phase := h.phase

theorem kept_leaveBus (s : State) : Kept s s.leaveBus := .of_blocks (transmit := fun _ => rfl)

theorem kept_discardSlots (s : State) : Kept s s.discardSlots where
  credit := by
    have free (i : SlotNo) : s.discardSlots.slot i = none := by simp [State.slot, State.discardSlots, InboundServer.cleared]
    exact creditBooks_fewer { slot := fun i _ => free i }
  ring := id
  counts books := countsKept_of books
  phase := rfl

theorem clearPeers_peer (s : State) (p : Station) : s.clearPeers.peer p = .cleared := by simp [State.peer, State.clearPeers]

theorem clearPeers_grantCount (s : State) (p : Station) : s.clearPeers.grantCount p = 0 := by
  simp [State.grantCount, State.clearPeers, CreditUnit.cleared]

theorem kept_clearPeers (s : State) : Kept s s.clearPeers where
  credit := creditBooks_fewer
    { grants := fun p => (clearPeers_grantCount s p).le.trans (Nat.zero_le _)
      held := fun p => by rw [clearPeers_peer]; exact Nat.zero_le _ }
  ring := id
  counts books := countsKept_of books (served := fun p _ => by rw [clearPeers_peer]; exact Nat.zero_le _)
    (refusals := fun _ => Nat.zero_le _)
  phase := rfl

theorem kept_clearNotices (s : State) : Kept s s.clearNotices :=
  kept_foldl (fun s w => kept_setWindowAt s w _ fun _ => noticeCounts_of_none rfl) allWindows s

theorem clearNotices_grantCount (s : State) (p : Station) : s.clearNotices.grantCount p = s.grantCount p := by
  obtain ⟨w, h⟩ := PeerBus.clearNotices_frame s
  rw [h]
  rfl

theorem kept_stopStationTimers (s : State) : Kept s s.stopStationTimers := .of_blocks

/-- R12: the end of the session. -/
theorem kept_endSession (awake : Awake r) (h : Kept r s) : Kept r s.endSession := by
  have left := (((h.trans (kept_clearPeers s)).trans (kept_clearNotices _)).trans (kept_leaveBus _)).trans
    (kept_stopStationTimers _)
  exact kept_enterStation awake left fun _ _ p => (clearNotices_grantCount _ p).trans (clearPeers_grantCount s p)

theorem faultCounts_isolateBusy (ch : Channel) : FaultCounts ch.isolateBusy := faultCounts_channelFault ch .isolated none

theorem kept_isolateChannel (s : State) (c : Chan) : Kept s (s.isolateChannel c) := by
  have busy : Kept s (s.setChan c (s.chan c).isolateBusy) := kept_setChan s c _ fun _ => faultCounts_isolateBusy _
  unfold State.isolateChannel
  dsimp only
  split
  case h_1 | h_2 => exact .refl s
  case h_6 => exact (kept_setWait s c none).trans (kept_setChan _ c _ fun _ => faultCounts_channelFault (s.chan c) _ _)
  case h_7 => exact kept_setChan s c _
  all_goals exact busy

theorem kept_endIsolated (s : State) (c : Chan) : Kept s (s.endIsolated c) := by
  unfold State.endIsolated
  split
  · exact kept_complete s c _
  · exact .refl s

theorem kept_isolateEntry (s : State) (v : Tag) : Kept s (s.isolateEntry v) := by
  have below (c : Chan) : Kept s (s.endIsolatedBelow c) := by
    unfold State.endIsolatedBelow
    split
    · exact kept_foldl kept_endIsolated _ s
    · exact .refl s
  unfold State.isolateEntry
  split
  · exact .refl s
  split
  case h_4 => exact kept_setEntry s v _
  case h_5 => exact .refl s
  all_goals exact ((below _).trans (kept_retire _ _ _)).trans (kept_endIsolated _ _)

/-- R14: the entry into ISOLATED. -/
theorem kept_isolate (awake : Awake r) (h : Kept r s) : Kept r s.isolate := by
  have left := (((h.trans (kept_leaveBus s)).trans (kept_discardSlots _)).trans (kept_clearPeers _)).trans
    ((kept_clearNotices _).trans (kept_stopStationTimers _))
  have isolated := kept_enterStation awake left (st := .isolated) fun _ _ p =>
    (clearNotices_grantCount _ p).trans (clearPeers_grantCount s.leaveBus.discardSlots p)
  have notReady (u : State) : Kept u { u with readyList := [] } := .of_blocks
  exact ((((isolated.trans (notReady _)).trans (kept_foldl kept_isolateChannel allChans _)).trans
    (kept_foldl kept_isolateEntry allTags _)).trans (kept_foldl kept_endIsolated allChans _)).trans (kept_settle _)

/-- R5, R6: with these blocks at their reset contents the books are kept. -/
theorem booksKept_of_reset (peers : t.peers = .replicate 16 .cleared) (credit : t.credit = .cleared)
    (windows : t.windows = .replicate 8 .cleared) (channels : t.channels = .replicate 8 .cleared) (ring : t.ring = .cleared)
    (silent : t.phase ≠ .running → t.station.state = none ∧ t.bus.transmit = none) : BooksKept s t where
  credit _ := creditBooks_of_zero (fun p => by simp [State.grantCount, credit, CreditUnit.cleared])
    (fun p => by simp [State.peer, peers, PeerEntry.cleared]) silent
  ring _ := by
    unfold RingKept
    rw [ring]
    exact ⟨rfl, rfl⟩
  counts _ :=
    { served := fun p => by simp [State.peer, peers, PeerEntry.cleared]
      refusals := by rw [credit]; exact Nat.zero_le _
      notices := fun w n hn => by simp [State.window, windows, Window.cleared] at hn
      faults := fun c f hf => by simp [State.chan, channels, Channel.cleared] at hf }

theorem booksKept_startReset (s : State) (kind : StartResetKind) (cut : List Bool) (l : Latch) :
    BooksKept s { s.beginStartReset kind cut with latch := l } :=
  booksKept_of_reset rfl rfl rfl rfl rfl fun _ => ⟨rfl, rfl⟩

theorem booksKept_softReset (running : s.phase = .running) : BooksKept s s.softResetBlocks := by
  unfold State.softResetBlocks
  dsimp only
  split
  · exact booksKept_of_reset rfl rfl rfl rfl rfl fun _ => ⟨rfl, rfl⟩
  · exact booksKept_of_reset rfl rfl rfl rfl rfl fun quiet => absurd running quiet

/-- Outside the running phase nothing is granted or held, so C may change. -/
theorem booksKept_of_silent (quiet : s.phase ≠ .running) (peers : t.peers = s.peers) (credit : t.credit = s.credit)
    (windows : t.windows = s.windows) (channels : t.channels = s.channels) (ring : t.ring = s.ring)
    (silent : t.phase ≠ .running → t.station.state = s.station.state ∧ t.bus = s.bus) : BooksKept s t where
  credit h := by
    obtain ⟨state, transmit, held⟩ := h.silent quiet
    have grants := h.grantsOnline (by rw [state]; nofun)
    refine creditBooks_of_zero (fun p => ?_) (fun p => ?_) fun hp => ?_
    · rw [State.grantCount, credit]; exact grants p
    · rw [State.peer, peers]; exact held p
    · obtain ⟨station, bus⟩ := silent hp
      exact ⟨station.trans state, by rw [bus]; exact transmit⟩
  ring := ringKept_left (.of_eq ring)
  counts books := countsKept_of books (fun p => by rw [State.peer, State.peer, peers]; exact id) (by rw [credit]; exact id)
    (fun w => by rw [State.window, State.window, windows]; exact id)
    fun c => by rw [State.chan, State.chan, channels]; exact id

/-- R8: the entry into JOINING from OFFLINE. -/
theorem kept_enterJoining (running : s.phase = .running) (offline : s.station.state = some .offline) (inc : Byte) :
    Kept s (s.enterJoining inc) := by
  let u : State := { s with
    station := { s.station with incarnation := some inc, joinListen := .running s.silenceTimeout }
    marks := { s.marks with own := 0#16 } }
  have begun : Kept s u := .of_blocks
  have cleared : Kept u u.clearSequences := kept_foldl (fun v p => kept_modPeer v p _) allStations u
  have state : u.clearSequences.station.state = some .offline := by
    obtain ⟨x, hx⟩ := PeerBus.clearSequences_frame u
    rw [hx]
    exact offline
  have joining := kept_enterStation (fun _ => running) (begun.trans cleared) (st := .joining) fun books _ =>
    books.grantsOnline (by rw [state]; nofun)
  have line (v : State) : Kept v
      { v with bus := { v.bus with slotRef := .cold, clashCount := 0, line := .idle, slotClock := 0 } } := .of_blocks
  exact (joining.trans (line _)).trans (kept_of_own (ownLeaves_queueControl _ _) rfl)

/-- R11: the entry into LEAVING. -/
theorem kept_enterLeaving (running : s.phase = .running) : Kept s s.enterLeaving := by
  let u : State := { s with credit := { s.credit with askList := [], grants := .replicate 16 0 } }
  have none (p : Station) : u.grantCount p = 0 := by simp [u, State.grantCount]
  have withdrawn : Kept s u :=
    { credit := creditBooks_fewer { grants := fun p => (none p).le.trans (Nat.zero_le _) }
      ring := id
      counts := fun books => countsKept_of books
      phase := rfl }
  have leaving : Kept s (u.enterStation .leaving) := kept_enterStation (fun _ => running) withdrawn fun _ _ => none
  have asked (v : State) : Kept v v.clearAsked := kept_foldl (fun v p => kept_modPeer v p _) allStations v
  exact (leaving.trans (kept_withdrawControl _ Control.isCredit)).trans (asked _)

end Sys2Proof.Credits
end

section
/-! SUPPORT. From the operations to the commands: every step keeps the credit books, the ring within its size and the counts
within their ranges. -/
namespace Sys2Proof.Credits

open Sys2Proof Sys2Proof.Machine Sys2Proof.Safety OwnSteps

-- Each thread of the elaborator reserves 1 GB under the memory limit of the check.
set_option Elab.async false

variable {r s t u : State}

/-! ## The shapes that meanings have -/

/-- A command taken by a write of CMD: what its decision keeps, it keeps. -/
theorem booksKept_takeCommand {code operand : Byte} {decision : State → State × ResultCode}
    (h : ∀ u : State, u.phase = .running → BooksKept u (decision u).1) :
    BooksKept s (s.takeCommand code operand decision) := by
  by_cases running : s.phase = .running
  · rw [State.takeCommand_running running]
    exact ((kept_host s _).toBooksKept.trans (h (commanded s code operand) running)).trans (kept_answer _ _ _).toBooksKept
  · rw [State.takeCommand_silent running]
    exact .refl s

/-- Only a running part has a station state (section 1.4). -/
theorem awake_of_state {st : StationState} (h : s.inState st = true) : Awake s := fun books => by
  by_contra quiet
  have state : s.station.state = some st := by simpa [State.inState] using h
  rw [(books.silent quiet).1] at state
  cases state

theorem awake_of_receiverOn (h : s.receiverOn = true) : Awake s := by
  simp only [State.receiverOn, Bool.or_eq_true] at h
  rcases h with (h | h) | h
  · exact awake_of_state h
  · exact awake_of_state h
  · exact awake_of_state h

theorem awake_of_transmit {x : Transmission} (h : s.bus.transmit = some x) : Awake s := fun books => by
  by_contra quiet
  rw [(books.silent quiet).2.1] at h
  cases h

theorem awake_of_listening (h : s.listening = true) : Awake s :=
  awake_of_receiverOn (Bool.and_eq_true_iff.1 h).1

/-- A message heard (R22): what its delivery keeps, the command keeps. -/
theorem kept_hearFrom {source : Byte} {ok : Bool} {take : Station → State → State}
    (h : ∀ (p : Station) (u : State), Awake s → Kept s u → Kept s (take p u)) : Kept s (s.hearFrom source ok take) := by
  have ended (x : SlotRef) : Kept s (s.activityEnd x) := kept_activityEnd s x
  unfold State.hearFrom
  split
  · exact .refl s
  have awake : Awake s := awake_of_listening (by simpa using ‹¬(!s.listening) = true›)
  split
  · exact ended _
  split
  · exact kept_isolate awake (.refl s)
  split
  · exact ended _
  split
  · exact (h _ _ awake (ended _)).trans (kept_settle _)
  · exact ended _

/-- The end of an access (R162): what its report keeps, it keeps. -/
theorem kept_finishAccess {cur : CurrentAccess} {e : AccessEnd} {report : State → State}
    (h : ∀ u : State, Kept u (report u)) : Kept s (s.finishAccess cur e report) := by
  have wrote : Kept s (s.applyWrite cur.access e) := by
    unfold State.applyWrite
    split
    · exact .of_blocks
    · exact .refl s
  have reported : Kept s (if cur.dropped then s.applyWrite cur.access e else report (s.applyWrite cur.access e)) :=
    iteInduction (fun _ => wrote) fun _ => wrote.trans (h _)
  have idle (u : State) : Kept u { u with port := { u.port with current := none } } := .of_blocks
  exact (reported.trans (idle _)).trans (kept_settle _)

/-- A row of a step of the part itself. -/
theorem kept_ownRow {step : Option State} (h : ∀ t, step = some t → Kept s t) : Kept s (s.ownRow step) := by
  unfold State.ownRow
  cases step with
  | none => exact kept_settle s
  | some t => exact (h t rfl).trans (kept_settle t)

/-! ## Host commands -/

theorem booksKept_join (operand : Byte) (h : execJoin operand s = .next t) : BooksKept s t := by
  cases h
  refine booksKept_takeCommand fun u running => PeerBus.inStateOnly_keeps (fun offline => ?_) (.refl u)
  split
  · exact (kept_enterJoining running offline _).toBooksKept
  · exact .refl u

theorem booksKept_leave (operand : Byte) (h : execLeave operand s = .next t) : BooksKept s t := by
  cases h
  refine booksKept_takeCommand fun u running => PeerBus.inStateOnly_keeps (fun _ => ?_) (.refl u)
  split
  · exact ((kept_enterLeaving running).trans (kept_settle _)).toBooksKept
  · exact .refl u

theorem booksKept_clearIsolation (operand : Byte) (h : execClearIsolation operand s = .next t) : BooksKept s t := by
  cases h
  refine booksKept_takeCommand fun u running => PeerBus.inStateOnly_keeps (fun isolated => ?_) (.refl u)
  split
  · exact (kept_enterStation (fun _ => running) (.refl u) fun books _ =>
      books.grantsOnline (by rw [isolated]; nofun)).toBooksKept
  · exact .refl u

/-- R69: a window newly set has no notice. -/
theorem booksKept_setWindow (operand : Byte) (h : execSetWindow operand s = .next t) : BooksKept s t := by
  cases h
  refine booksKept_takeCommand fun u _ => PeerBus.inStateOnly_keeps (fun _ => ?_) (.refl u)
  split
  · split
    · exact (kept_setWindowAt u _ _ fun _ => noticeCounts_of_none rfl).toBooksKept
    · exact .refl u
  · exact .refl u

theorem isRingSize_of_mem {n : Nat} (h : ringSizes.contains n = true) : isRingSize n := by
  simpa [ringSizes, isRingSize] using h

theorem booksKept_setRing (operand : Byte) (h : execSetRing operand s = .next t) : BooksKept s t := by
  cases h
  refine booksKept_takeCommand fun u _ => PeerBus.inStateOnly_keeps (fun _ => ?_) (.refl u)
  split
  · have accepted := ‹(_ && _) = true›
    simp only [Bool.and_eq_true, decide_eq_true_eq] at accepted
    obtain ⟨⟨⟨aligned, -⟩, size⟩, fits⟩ := accepted
    exact (kept_ring u _ fun _ => ringKept_set u (isRingSize_of_mem size) aligned fits).toBooksKept
  · exact .refl u

theorem booksKept_start (operand : Byte) (h : execStart operand s = .next t) : BooksKept s t := by
  cases h
  refine booksKept_takeCommand fun u _ => ?_
  split
  · exact .refl u
  split
  · exact .refl u
  split
  · exact .refl u
  split
  · exact .refl u
  split
  · exact ((kept_beginFetch u _ _).trans (kept_settle _)).toBooksKept
  · exact .refl u

theorem booksKept_abort (operand : Byte) (h : execAbort operand s = .next t) : BooksKept s t := by
  cases h
  refine booksKept_takeCommand fun u running => ?_
  split
  · exact .refl u
  · exact (kept_abortChannel (fun _ => running) _).toBooksKept

theorem booksKept_clear (operand : Byte) (h : execClear operand s = .next t) : BooksKept s t := by
  cases h
  refine booksKept_takeCommand fun u _ => ?_
  have cleared (c : Chan) : Kept u (u.modChan c fun ch =>
      { ch with state := .idle, fault := none, flag := .none, addr := none, copy := none }) :=
    kept_modChan u c _ fun _ => faultCounts_of_none rfl
  split
  · exact .refl u
  split
  · exact (cleared _).toBooksKept
  · exact .refl u

theorem booksKept_advanceMark (operand : Byte) (h : execAdvanceMark operand s = .next t) : BooksKept s t := by
  cases h
  exact booksKept_takeCommand fun u _ => PeerBus.inStateOnly_keeps (P := BooksKept u)
    (fun _ => ((kept_of_own (ownLeaves_advanceMark u)).trans (kept_settle _)).toBooksKept) (.refl u)

theorem kept_setViews (s : State) (v : Vector Word 8) : Kept s (s.setViews v) := .of_blocks

theorem booksKept_readChannel (operand : Byte) (h : execReadChannel operand s = .next t) : BooksKept s t := by
  cases h
  refine booksKept_takeCommand fun u _ => ?_
  split
  · exact .refl u
  split
  · exact .refl u
  · exact (kept_setViews u _).toBooksKept

theorem booksKept_readPeer (operand : Byte) (h : execReadPeer operand s = .next t) : BooksKept s t := by
  cases h
  refine booksKept_takeCommand fun u _ => ?_
  split
  · exact .refl u
  · exact (kept_setViews u _).toBooksKept

theorem booksKept_readWindow (operand : Byte) (h : execReadWindow operand s = .next t) : BooksKept s t := by
  cases h
  refine booksKept_takeCommand fun u _ => ?_
  split
  · exact .refl u
  · exact (kept_setViews u _).toBooksKept

theorem booksKept_readWatch (operand : Byte) (h : execReadWatch operand s = .next t) : BooksKept s t := by
  cases h
  refine booksKept_takeCommand fun u _ => ?_
  split
  · exact .refl u
  · exact ((kept_setViews u _).trans (kept_setWindowAt _ _ _ fun _ => noticeCounts_of_none rfl)).toBooksKept

theorem booksKept_readPeerChanges (operand : Byte) (h : execReadPeerChanges operand s = .next t) : BooksKept s t := by
  cases h
  refine booksKept_takeCommand fun u _ => ?_
  have emptied (v : State) : Kept v { v with changes := 0#16 } := .of_blocks
  exact ((kept_setViews u _).trans (emptied _)).toBooksKept

theorem booksKept_unknownCommand (code operand : Byte) (h : execUnknownCommand code operand s = .next t) :
    BooksKept s t := by
  cases h
  split
  · exact .refl s
  · exact booksKept_takeCommand fun u _ => .refl u

/-! ## Other host writes -/

theorem kept_consumerWrite (v : Word) (h : execConsumerWrite v s = .next t) : Kept s t := by
  cases h
  split
  · split
    · exact ((kept_ring s _ (ringKept_consumed ‹_›)).trans (kept_testRecordWrite _)).trans (kept_settle _)
    · exact kept_host s _
  · exact .refl s

theorem kept_attnWrite (w : Word) (h : execAttnWrite w s = .next t) : Kept s t := by
  cases h
  split
  · exact kept_host s _
  · exact .refl s

theorem kept_attnenWrite (w : Word) (h : execAttnenWrite w s = .next t) : Kept s t := by
  cases h
  split
  · exact kept_host s _
  · exact .refl s

theorem kept_registerWrite (addr : BitVec 7) (w : Word) (h : execRegisterWrite addr w s = .next t) : Kept s t := by
  cases h
  split
  · split
    · exact kept_host s _
    · exact .refl s
  · exact .refl s

/-! ## The line -/

theorem kept_lineEvent {c : Prop} [Decidable c] (x : SlotRef) : Kept s (if c then s.activityEnd x else s) :=
  iteInduction (fun _ => kept_activityEnd s x) fun _ => .refl s

theorem kept_activityBegin (h : execActivityBegin s = .next t) : Kept s t := by
  cases h
  split
  · exact .of_blocks
  · exact .refl s

theorem kept_ownNumberHeard (h : execOwnNumberHeard s = .next t) : Kept s t := by
  cases h
  split
  · split
    · exact kept_activityEnd s _
    · exact kept_isolate (awake_of_listening ‹_›) (.refl s)
  · exact .refl s

/-! ## Transmission -/

/-- A transmission begins while the part runs (R26, R29). -/
theorem kept_transmitNow (awake : Awake r) (h : Kept r s) (item : Outgoing) (m : Message) :
    Kept r (s.transmitNow item m) where
  credit hr := by
    have before := h.credit hr
    exact ⟨before.bound, before.grantCap, before.heldCap, before.grantsOnline, fun quiet =>
      absurd (h.phase.trans (awake hr)) quiet⟩
  ring := h.ring
  counts hr := countsKept_of (h.counts hr)
  phase := h.phase

theorem kept_send (awake : Awake r) (h : Kept r s) (repliesOnly : Bool) : Kept r (s.send repliesOnly) := by
  have taken (b : BusInterface) (transmit : b.transmit = s.bus.transmit) : Kept r { s with bus := b } :=
    h.trans (.of_blocks (transmit := transmit.trans))
  unfold State.send
  split
  · refine kept_transmitNow awake ?_ _ _
    exact taken _ rfl
  split
  · exact h
  split
  · refine kept_transmitNow awake ?_ _ _
    exact taken _ rfl
  unfold State.sendRequest
  split
  · exact h
  split
  · exact h
  · refine kept_transmitNow awake (Kept.trans ?_ (kept_setEntry _ _ _)) _ _
    exact taken _ rfl

theorem awake_of_mayTransmit (h : s.mayTransmit = true) : Awake s := by
  simp only [State.mayTransmit, Bool.and_eq_true] at h
  exact awake_of_receiverOn h.1.1

theorem kept_busSlotStart (n : Nat) (h : execBusSlotStart n s = .next t) : Kept s t := by
  cases h
  split
  · exact .refl s
  split
  · have may : s.mayTransmit = true := by simp_all
    exact kept_send (awake_of_mayTransmit may) (kept_countTo s _) _
  · exact .refl s

theorem kept_coldGuardExpiry (n : Nat) (h : execColdGuardExpiry n s = .next t) : Kept s t := by
  cases h
  split
  · exact .refl s
  split
  · have may : s.mayTransmit = true := by simp_all
    exact kept_send (awake_of_mayTransmit may) (kept_countTo s _) _
  · exact .refl s

theorem kept_reportSent (awake : Awake r) (h : Kept r s) (item : Outgoing) : Kept r (s.reportSent item) := by
  unfold State.reportSent
  split
  · split
    · exact h.trans (kept_freeSlotAt s _)
    · exact h.trans (kept_refusals s _ (Nat.sub_le _ 1).trans)
  · exact kept_endSession awake h
  case h_7 => exact h.trans (kept_modEntry s _ _)
  all_goals exact h

theorem kept_transmissionEnd (h : execTransmissionEnd s = .next t) : Kept s t := by
  cases h
  split
  · exact .refl s
  rename_i x hx
  refine Kept.trans ?_ (kept_settle _)
  have ended : Kept s { s with bus := { s.bus with
      transmit := none, clashCount := 0, slotRef := .warm s.ownStation, line := .idle, slotClock := 0 } } :=
    .of_blocks (transmit := fun _ => rfl)
  unfold State.endTransmission
  split
  · exact ended
  · exact kept_reportSent (awake_of_transmit hx) ended x.item

theorem kept_returnToQueue (awake : Awake r) (h : Kept r s) (item : Outgoing) : Kept r (s.returnToQueue item) := by
  unfold State.returnToQueue
  split
  · exact h.trans .of_blocks
  · exact h.trans .of_blocks
  split
  · exact h
  dsimp only
  split
  · exact (kept_returnCredit awake (h.trans (kept_setEntry s _ _)) _).trans (kept_retire _ _ _)
  · exact h.trans .of_blocks

theorem kept_transmissionClash (h : execTransmissionClash s = .next t) : Kept s t := by
  cases h
  split
  · exact .refl s
  rename_i x hx
  refine Kept.trans ?_ (kept_settle _)
  have ended (n : Nat) : Kept s { s with bus := { s.bus with
      transmit := none, clashCount := n, slotRef := .cold, line := .abandoned, slotClock := 0 } } :=
    .of_blocks (transmit := fun _ => rfl)
  simp only [State.clash]
  split
  · exact kept_isolate (awake_of_transmit hx) (ended _)
  split
  · exact ended _
  · exact kept_returnToQueue (awake_of_transmit hx) (ended _) x.item

/-! ## Timers -/

theorem kept_joinListenTimerExpiry (h : execJoinListenTimerExpiry s = .next t) : Kept s t := by
  cases h
  split
  · have expires := Bool.and_eq_true_iff.1 ‹(s.inState .joining && s.station.joinListen.isRunning) = true›
    have online := kept_enterStation (awake_of_state expires.1) (.refl s) (st := .online) fun _ other => absurd rfl other
    have timers (u : State) (j p : Timer) : Kept u { u with station := { u.station with joinListen := j, presence := p } } :=
      .of_blocks
    exact (online.trans (timers _ _ _)).trans (kept_settle _)
  · exact .refl s

theorem kept_presenceTimerExpiry (h : execPresenceTimerExpiry s = .next t) : Kept s t := by
  cases h
  have timer (u : State) (p : Timer) : Kept u { u with station := { u.station with presence := p } } := .of_blocks
  split
  · have queued := (kept_queuePresence s).trans (timer _ (.running s.presenceInterval))
    simpa using queued
  · exact .refl s

theorem kept_silenceTimerExpiry (p : Station) (h : execSilenceTimerExpiry p s = .next t) : Kept s t := by
  cases h
  split
  · exact (kept_silenceUpdate s p).trans (kept_settle _)
  · exact .refl s

theorem kept_askTimerExpiry (p : Station) (h : execAskTimerExpiry p s = .next t) : Kept s t := by
  cases h
  split
  · split
    · exact (kept_ask s p).trans (kept_settle _)
    · exact (kept_modPeer s p _).trans (kept_settle _)
  · exact .refl s

theorem kept_replyTimerExpiry (v : Tag) (h : execReplyTimerExpiry v s = .next t) : Kept s t := by
  cases h
  split
  · exact .refl s
  split
  · exact (kept_expireReply s v _).trans (kept_settle _)
  · exact .refl s

theorem kept_waitTimerExpiry (c : Chan) (h : execWaitTimerExpiry c s = .next t) : Kept s t := by
  cases h
  split
  · exact ((kept_setWait s c none).trans (kept_failChannel _ c _ _)).trans (kept_settle _)
  · exact .refl s

/-! ## Ends of local accesses -/

theorem kept_descriptorFetchEnd (o : AccessEnd) (h : execDescriptorFetchEnd o s = .next t) : Kept s t := by
  cases h
  split
  · exact .refl s
  split
  · exact kept_finishAccess fun u => kept_endFetch u _ _
  all_goals exact .refl s

theorem kept_loadEnd (o : AccessEnd) (h : execLoadEnd o s = .next t) : Kept s t := by
  cases h
  split
  · exact .refl s
  split
  · refine kept_finishAccess fun u => ?_
    split
    · split
      · exact kept_endLoad u _ _ o
      · exact .refl u
    · exact .refl u
  all_goals exact .refl s

theorem kept_storeEnd (o : AccessEnd) (h : execStoreEnd o s = .next t) : Kept s t := by
  cases h
  split
  · exact .refl s
  split
  · refine kept_finishAccess fun u => ?_
    split
    · split
      · exact kept_retire u _ _
      · exact .refl u
    · exact .refl u
  all_goals exact .refl s

theorem kept_inboundAccessEnd (o : AccessEnd) (h : execInboundAccessEnd o s = .next t) : Kept s t := by
  cases h
  split
  · exact .refl s
  split
  case h_1 | h_2 => exact kept_finishAccess fun u => kept_endSlotAccess u _ _ _
  all_goals exact .refl s

theorem kept_recordWriteEnd (o : AccessEnd) (h : execRecordWriteEnd o s = .next t) : Kept s t := by
  cases h
  split
  · exact .refl s
  split
  · exact kept_finishAccess fun u => kept_endRecord u _ _
  all_goals exact .refl s

/-! ## The end of a reset -/

theorem booksKept_resetEnd (h : execResetEnd s = .next t) : BooksKept s t := by
  cases h
  split
  · rename_i kind inReset
    exact booksKept_of_silent (by rw [inReset]; nofun) rfl rfl rfl rfl rfl fun _ => ⟨rfl, rfl⟩
  · exact .refl s
  · exact .refl s

theorem booksKept_configurationReadEnd (answers : List (Option Byte))
    (h : execConfigurationReadEnd answers s = .next t) : BooksKept s t := by
  cases h
  split
  · have reading : s.phase = .reading := ‹_›
    exact booksKept_of_silent (by rw [reading]; nofun) rfl rfl rfl rfl rfl fun quiet => absurd rfl quiet
  · exact .refl s

/-! ## Every command -/

theorem booksKept_exec (c : Instr) (h : Machine.exec c s = .next t) : BooksKept s t := by
  have heard {source : Byte} {ok : Bool} {take : Station → State → State}
      (h : ∀ (p : Station) (u : State), Awake s → Kept s u → Kept s (take p u)) :
      BooksKept s (s.hearFrom source ok take) := (kept_hearFrom h).toBooksKept
  have own {step : Option State} (h : ∀ t, step = some t → Kept s t) : BooksKept s (s.ownRow step) :=
    (kept_ownRow h).toBooksKept
  cases c with
  | powerOn cut => cases h; exact booksKept_startReset s _ cut _
  | resetPinAssert cut => cases h; exact booksKept_startReset s _ cut _
  | resetEnd => exact booksKept_resetEnd h
  | configurationReadEnd answers => exact booksKept_configurationReadEnd answers h
  | join op => exact booksKept_join op h
  | leave op => exact booksKept_leave op h
  | clearIsolation op => exact booksKept_clearIsolation op h
  | softReset op => cases h; exact booksKept_takeCommand fun _ running => booksKept_softReset running
  | setWindow op => exact booksKept_setWindow op h
  | setRing op => exact booksKept_setRing op h
  | start op => exact booksKept_start op h
  | abort op => exact booksKept_abort op h
  | clear op => exact booksKept_clear op h
  | advanceMark op => exact booksKept_advanceMark op h
  | readChannel op => exact booksKept_readChannel op h
  | readPeer op => exact booksKept_readPeer op h
  | readWindow op => exact booksKept_readWindow op h
  | readWatch op => exact booksKept_readWatch op h
  | readPeerChanges op => exact booksKept_readPeerChanges op h
  | unknownCommand code op => exact booksKept_unknownCommand code op h
  | consumerWrite v => exact (kept_consumerWrite v h).toBooksKept
  | attnWrite v => exact (kept_attnWrite v h).toBooksKept
  | attnenWrite v => exact (kept_attnenWrite v h).toBooksKept
  | registerWrite a v => exact (kept_registerWrite a v h).toBooksKept
  | activityBegin => exact (kept_activityBegin h).toBooksKept
  | badCheckActivity => cases h; exact (kept_lineEvent .cold).toBooksKept
  | malformedMessage source => cases h; exact heard fun _ _ _ hu => hu
  | joinHeard source inc mark =>
      cases h
      exact heard fun p u _ hu => (hu.trans (kept_presenceUpdate u p inc _ true)).trans (kept_queuePresence _)
  | presenceHeard source inc mark => cases h; exact heard fun p u _ hu => hu.trans (kept_presenceUpdate u p inc _ false)
  | leaveHeard source inc mark => cases h; exact heard fun p u _ hu => hu.trans (kept_leaveUpdate u p inc mark)
  | askHeard source inc wanted =>
      cases h
      exact heard fun p u _ hu => (hu.trans (kept_presenceUpdate u p inc none false)).trans (kept_takeAsk _ p _)
  | grantHeard source inc credits echo =>
      cases h
      exact heard fun p u awake hu => kept_takeGrant awake (hu.trans (kept_presenceUpdate u p inc none false)) p _ echo
  | writeHeard source inc tag seq low window offset payload =>
      cases h
      exact heard fun p u _ hu => (hu.trans (kept_presenceUpdate u p inc none false)).trans (kept_takeRequest _ _)
  | readHeard source inc tag seq low window offset length =>
      cases h
      exact heard fun p u _ hu => (hu.trans (kept_presenceUpdate u p inc none false)).trans (kept_takeRequest _ _)
  | ackHeard source inc tag seq echo status =>
      cases h
      exact heard fun p u awake hu => kept_deliverReply awake hu p inc .write tag seq echo status []
  | dataHeard source inc tag seq echo status payload =>
      cases h
      exact heard fun p u awake hu => kept_deliverReply awake hu p inc .read tag seq echo status payload
  | granting => cases h; exact own fun t h => kept_granting h
  | busSlotStart n => exact (kept_busSlotStart n h).toBooksKept
  | coldGuardExpiry n => exact (kept_coldGuardExpiry n h).toBooksKept
  | transmissionEnd => exact (kept_transmissionEnd h).toBooksKept
  | transmissionClash => exact (kept_transmissionClash h).toBooksKept
  | leaveQueued => cases h; exact own fun t h => kept_leaveQueued h
  | joinListenTimerExpiry => exact (kept_joinListenTimerExpiry h).toBooksKept
  | presenceTimerExpiry => exact (kept_presenceTimerExpiry h).toBooksKept
  | silenceTimerExpiry p => exact (kept_silenceTimerExpiry p h).toBooksKept
  | askTimerExpiry p => exact (kept_askTimerExpiry p h).toBooksKept
  | replyTimerExpiry v => exact (kept_replyTimerExpiry v h).toBooksKept
  | waitTimerExpiry c => exact (kept_waitTimerExpiry c h).toBooksKept
  | asking p => cases h; exact own fun t h => kept_asking h
  | creditHanding p => cases h; exact own fun t h => kept_creditHanding h
  | entryAllocation => cases h; exact own fun t h => kept_entryAllocation h
  | descriptorEnd c => cases h; exact own fun t h => kept_descriptorEnd h
  | accessGrant => cases h; exact own fun t h => kept_accessGrant h
  | descriptorFetchEnd o => exact (kept_descriptorFetchEnd o h).toBooksKept
  | loadEnd o => exact (kept_loadEnd o h).toBooksKept
  | storeEnd o => exact (kept_storeEnd o h).toBooksKept
  | inboundAccessEnd o => exact (kept_inboundAccessEnd o h).toBooksKept
  | recordWriteIssue => cases h; exact own fun t h => kept_recordWriteIssue h
  | recordWriteEnd o => exact (kept_recordWriteEnd o h).toBooksKept
  | ownNumberHeard => exact (kept_ownNumberHeard h).toBooksKept
  | sourceNOrHigherHeard source => cases h; exact (kept_lineEvent .cold).toBooksKept
  | overheardMessage dest source kind inc =>
      cases h
      exact iteInduction (motive := BooksKept s) (fun _ => .refl s) fun _ =>
        heard fun p u _ hu => hu.trans (kept_presenceUpdate u p inc none false)

theorem booksKept_step (h : Machine.step s = .next t) : BooksKept s t := by
  have taken (l : List Instr) : Kept s { s with pending := l } := .of_blocks
  unfold Machine.step at h
  split at h
  · cases h; exact .refl s
  · exact (taken _).toBooksKept.trans (booksKept_exec _ h)

/-- Settles O53: every operation that occupies a slot, grants or holds keeps the books, and through these every command does. -/
theorem everyStepKeepsTheCreditBooks : Obligations.EveryStepKeepsTheCreditBooks := by
  unfold Obligations.EveryStepKeepsTheCreditBooks
  exact fun _ _ books h => (booksKept_step h).credit books

/-- Settles O56: the same for the ring and for what is counted. -/
theorem everyStepKeepsRingAndCounts : Obligations.EveryStepKeepsRingAndCounts := by
  unfold Obligations.EveryStepKeepsRingAndCounts
  exact fun _ _ h => ⟨(booksKept_step h).ring, (booksKept_step h).counts⟩

end Sys2Proof.Credits
end

section
/-! SUPPORT. ASK, GRANT and requests delivered (R58, R61 to R66, R71 to R73), and granting. -/
namespace Sys2Proof.Credits

open Sys2Proof Sys2Proof.Machine Sys2Proof.Safety

-- Each thread of the elaborator reserves 1 GB under the memory limit of the check.
set_option Elab.async false

variable {s : State} {p : Station}

/-! ## The rows of messages delivered (R21, R23) -/

theorem wfCredits_of_bounds {n : Byte} (low : 1 ≤ n.toNat) (high : n.toNat ≤ 4) : wfCredits n = true := by
  simp [wfCredits, low, high]

theorem wfRequest_of_bounds {tag window : Byte} {offset : BitVec 24} {length : Nat} (htag : tag.toNat < 16)
    (hwindow : window.toNat ≤ 7) (hoffset : offset.toNat < 1048576) (low : 1 ≤ length) (high : length ≤ 64) :
    wfRequest tag window offset length = true := by
  simp [wfRequest, wfTag, Config.offsetSize, htag, hwindow, hoffset, low, high]

theorem exec_askHeard {source wanted : Byte} (h : Hearing s source p) (low : 1 ≤ wanted.toNat)
    (high : wanted.toNat ≤ 4) (inc : Byte) :
    exec (.askHeard source inc wanted) s = .next ((delivered s p inc).takeAsk p wanted.toNat).settle := by
  rw [exec, execAskHeard, wfCredits_of_bounds low high, State.hearFrom_hearing h]
  rfl

theorem exec_grantHeard {source credits : Byte} (h : Hearing s source p) (low : 1 ≤ credits.toNat)
    (high : credits.toNat ≤ 4) (inc echo : Byte) :
    exec (.grantHeard source inc credits echo) s
      = .next ((delivered s p inc).takeGrant p credits.toNat echo).settle := by
  rw [exec, execGrantHeard, wfCredits_of_bounds low high, State.hearFrom_hearing h]
  rfl

/-- A request as its row hands it to the credit unit. -/
def requestHeard (p : Station) (inc : Byte) (kind : ReqKind) (tag seq low window : Byte) (offset : BitVec 24) (length : Nat)
    (payload : List Byte) : Request :=
  { source := p, inc, kind, tag := tagOfByte tag, seq, low, window := windowOfByte window, offset := offset.toNat, length
    payload }

theorem exec_writeHeard {source tag window : Byte} {offset : BitVec 24} {payload : List Byte} (h : Hearing s source p)
    (wf : wfRequest tag window offset payload.length = true) (inc seq low : Byte) :
    exec (.writeHeard source inc tag seq low window offset payload) s = .next ((delivered s p inc).takeRequest
      (requestHeard p inc .write tag seq low window offset payload.length payload)).settle := by
  rw [exec, execWriteHeard, wf, State.hearFrom_hearing h]
  rfl

theorem exec_readHeard {source tag window length : Byte} {offset : BitVec 24} (h : Hearing s source p)
    (wf : wfRequest tag window offset length.toNat = true) (inc seq low : Byte) :
    exec (.readHeard source inc tag seq low window offset length) s = .next ((delivered s p inc).takeRequest
      (requestHeard p inc .read tag seq low window offset length.toNat [])).settle := by
  rw [exec, execReadHeard, wf, State.hearFrom_hearing h]
  rfl

/-! ## ASK (R61, R62) -/

/-- R61: an asker keeps its position with the new wanted count, and a new one joins at the end. -/
theorem addAsker_eq (l : List Asker) (p : Station) (n : Nat) :
    addAsker l p n = if ∃ a ∈ l, a.peer = p then l.map fun a => if a.peer = p then { peer := p, wanted := n } else a
      else l ++ [{ peer := p, wanted := n }] := by
  unfold addAsker
  by_cases asks : ∃ a ∈ l, a.peer = p
  · rw [if_pos asks, if_pos (by simpa using asks)]
    refine List.map_congr_left fun a _ => ?_
    split
    · subst_vars; rfl
    · rfl
  · rw [if_neg asks, if_neg (by simpa using asks)]

theorem takeAsk_joining (h : s.station.state = some .joining) (n : Nat) : s.takeAsk p n = s.joinAskList p n := by
  simp [State.takeAsk, State.inState, h]

theorem takeAsk_leaving (h : s.station.state = some .leaving) (n : Nat) : s.takeAsk p n = s := by
  simp [State.takeAsk, State.inState, h]

theorem takeAsk_granted (h : s.station.state = some .online)
    (waits : ∃ c ∈ s.bus.controlQueue, c.isGrantTo p = true) (n : Nat) : s.takeAsk p n = s := by
  have any : s.bus.controlQueue.any (Control.isGrantTo p) = true := List.any_eq_true.2 waits
  simp [State.takeAsk, State.inState, h, any]

theorem takeAsk_online (h : s.station.state = some .online)
    (none : ¬ ∃ c ∈ s.bus.controlQueue, c.isGrantTo p = true) (n : Nat) :
    s.takeAsk p n = (s.setGrant p 0).joinAskList p n := by
  have any : s.bus.controlQueue.any (Control.isGrantTo p) = false :=
    Bool.eq_false_iff.2 fun any => none (List.any_eq_true.1 any)
  simp [State.takeAsk, State.inState, h, any]

/-! ## Granting (R63) -/

theorem granting_eq {a : Asker} {rest : List Asker} {inc : Byte} (online : s.station.state = some .online)
    (asks : s.credit.askList = a :: rest) (room : s.occupied + s.grantSum < 8)
    (recorded : (s.peer a.peer).incarnation = some inc) :
    let g := min (min (8 - s.occupied - s.grantSum) (s.creditCap - s.grantCount a.peer)) a.wanted
    s.granting = some { s with
      credit := { (s.setGrant a.peer (s.grantCount a.peer + g)).credit with askList := rest }
      bus := { s.bus with controlQueue := s.bus.controlQueue ++ [.grant a.peer g inc] } } := by
  have isOnline : s.inState .online = true := decide_eq_true online
  have due : (s.inState .online && decide (1 ≤ s.freeCapacity)) = true := by
    rw [isOnline, Bool.true_and, decide_eq_true_eq, State.freeCapacity, Config.inboundSlots]
    omega
  simp only [State.granting, asks, due, if_true, State.setGrant_peer, recorded, Option.getD_some]
  rfl

/-- Settles O29: an ASK by the state of the station, and the grant to the oldest asker. -/
theorem asksAreTakenAndGranted : Obligations.AsksAreTakenAndGranted := by
  unfold Obligations.AsksAreTakenAndGranted
  refine ⟨fun s source inc wanted p hearing low high => ?_, fun s a rest inc online asks room recorded => ?_⟩
  · intro u asker joined grantWaits
    have list : joined = addAsker u.credit.askList p wanted.toNat := (addAsker_eq _ _ _).symm
    rw [exec_askHeard hearing low high]
    refine ⟨fun joining => ?_, fun leaving => ?_, fun online waits => ?_, fun online none => ?_⟩
    · rw [takeAsk_joining joining, list]
      rfl
    · rw [takeAsk_leaving leaving]
    · rw [takeAsk_granted online waits]
    · rw [takeAsk_online online none, list]
      rfl
  · intro free g
    rw [exec, execGranting, State.ownRow, granting_eq online asks room recorded, Option.getD_some]
    rfl

/-! ## GRANT (R58) -/

/-- Settles O30: the two echoes. -/
theorem grantRaisesTheHeldCredits : Obligations.GrantRaisesTheHeldCredits := by
  unfold Obligations.GrantRaisesTheHeldCredits
  intro s source inc credits echo p hearing low high u q
  rw [exec_grantHeard hearing low high]
  refine ⟨fun stale => ?_, fun own => ?_⟩
  · rw [State.takeGrant, if_neg stale]
  · rw [State.takeGrant, if_pos own]
    rfl

/-! ## Requests (R65, R66, R71 to R73) -/

/-- The first member of a rising list that passes a test. -/
theorem find?_eq_some_of_least {n : Nat} {l : List (Fin n)} (sorted : l.Pairwise (· < ·)) {f : Fin n → Bool} {i : Fin n}
    (mem : i ∈ l) (passes : f i = true) (least : ∀ j < i, f j = false) : l.find? f = some i := by
  obtain ⟨before, after, rfl⟩ := List.append_of_mem mem
  obtain ⟨-, -, lower⟩ := List.pairwise_append.1 sorted
  refine List.find?_eq_some_iff_append.2 ⟨passes, before, after, rfl, fun j hj => ?_⟩
  rw [least j (lower j hj i List.mem_cons_self)]
  rfl

theorem freeSlot_eq {i : SlotNo} (free : s.slot i = none) (least : ∀ j < i, s.slot j ≠ none) : s.freeSlot = some i :=
  find?_eq_some_of_least (by decide) (PeerTable.mem_allSlots i) (by rw [free]; rfl) fun j hj => by
    rw [Option.isNone_eq_false_iff, Option.isSome_iff_ne_none]
    exact least j hj

theorem takeRequest_refused {x : Request} (h : s.station.state = some .online → s.grantCount x.source = 0) :
    s.takeRequest x = s.refuse x := by
  have refused : ¬ (s.inState .online && decide (1 ≤ s.grantCount x.source)) = true := by
    rw [Bool.and_eq_true, decide_eq_true_eq, State.inState, decide_eq_true_eq]
    rintro ⟨online, granted⟩
    rw [h online] at granted
    exact absurd granted (by decide)
  rw [State.takeRequest, if_neg refused]

theorem takeRequest_admitted {x : Request} {i : SlotNo} (online : s.station.state = some .online)
    (granted : 1 ≤ s.grantCount x.source) (free : s.slot i = none) (least : ∀ j < i, s.slot j ≠ none) :
    s.takeRequest x = s.takeSlot x i := by
  have admitted : (s.inState .online && decide (1 ≤ s.grantCount x.source)) = true := by
    rw [State.inState, decide_eq_true online, decide_eq_true granted, Bool.and_self]
  rw [State.takeRequest, if_pos admitted, freeSlot_eq free least]

/-- R73: the pairs before the low-water leave the served record. -/
theorem prune_eq (s : State) (p : Station) (low : Byte) : s.prune p low = withPeer s p
    { s.peer p with served := (s.peer p).served.filter fun pair => (pair.seq - low).toNat < 128 } := by
  have keeps (pair : ServedPair) : (!seqBefore pair.seq low) = decide ((pair.seq - low).toNat < 128) :=
    Bool.eq_iff_iff.2 (by simp [seqBefore])
  rw [State.prune, funext keeps]
  rfl

/-- Settles O33: without a counted credit the request is refused, with one it takes the lowest-numbered FREE slot. -/
theorem requestsAreRefusedOrTakeASlot : Obligations.RequestsAreRefusedOrTakeASlot := by
  unfold Obligations.RequestsAreRefusedOrTakeASlot
  refine ⟨fun s source inc tag seq low window offset p hearing => ?_,
    fun s source inc tag seq low window offset p i hearing => ?_⟩
  · intro u refusal refused none htag hwindow hoffset
    refine ⟨fun payload short long => ?_, fun length short long => ?_⟩
    · rw [exec_writeHeard hearing (wfRequest_of_bounds htag hwindow hoffset short long), takeRequest_refused none]
      rfl
    · rw [exec_readHeard hearing (wfRequest_of_bounds htag hwindow hoffset short long), takeRequest_refused none]
      rfl
  · intro u online granted free least htag hwindow hoffset slot taken
    refine ⟨fun payload short long => ?_, fun length short long => ?_⟩
    · intro x
      rw [exec_writeHeard hearing (wfRequest_of_bounds htag hwindow hoffset short long),
        takeRequest_admitted online granted free least, State.takeSlot, prune_eq]
      rfl
    · intro x
      rw [exec_readHeard hearing (wfRequest_of_bounds htag hwindow hoffset short long),
        takeRequest_admitted online granted free least, State.takeSlot, prune_eq]
      rfl

end Sys2Proof.Credits
end

section
/-! SUPPORT. Replies and reply timeouts (R59, R136 to R139, R141, R144): which entry a reply settles, and how. -/
namespace Sys2Proof.Credits

open Sys2Proof Sys2Proof.Machine Sys2Proof.Safety

-- Each thread of the elaborator reserves 1 GB under the memory limit of the check.
set_option Elab.async false

variable {s u : State} {t : Tag} {e : Entry} {r : ReplyHeard}

/-! ## One entry -/

theorem setEntry_same (h : s.entry t = some e) : s.setEntry t (some e) = s := by
  have same : s.entries.set t (some e) = s.entries := by
    rw [← h]
    exact Vector.set_getElem_self t.isLt
  rw [State.setEntry, same]

theorem setEntry_setEntry (s : State) (t : Tag) (x y : Option Entry) : (s.setEntry t x).setEntry t y = s.setEntry t y := by
  simp [State.setEntry]

theorem modEntry_eq (h : s.entry t = some e) (f : Entry → Entry) : s.modEntry t f = s.setEntry t (some (f e)) := by
  rw [State.modEntry, h, Option.map_some]

theorem retire_eq (h : s.entry t = some e) (o : PieceOutcome) : s.retire t o =
    ((s.setEntry t none).modChan e.chan fun ch => ch.applyOutcome o e.piece e.peer).retestReady := by
  rw [State.retire, h]

/-- `e` with its reply timer at `ms`. -/
def withReplyTimer (e : Entry) (ms : Timer) : Entry :=
  { e with replyTimer := ms }

/-- A retirement reads nothing of the reply timer. -/
theorem retire_setTimer (h : s.entry t = some e) (ms : Timer) (o : PieceOutcome) :
    (s.setEntry t (some (withReplyTimer e ms))).retire t o = s.retire t o := by
  rw [retire_eq (State.entry_setEntry_self s t _), retire_eq h, setEntry_setEntry]
  rfl

/-- R53: the entry joins the credit wait list. -/
theorem joinWaitList_eq (h : s.entry t = some e) (p : Station) : s.joinWaitList t p =
    (s.setEntry t (some { e with state := .waitingCredit, replyTimer := .stopped })).modPeer p
      fun q => { q with waitList := q.waitList ++ [t] } := by
  rw [State.joinWaitList, modEntry_eq h]

/-! ## The reply timer (R136) -/

theorem exec_replyTimerExpiry {ms : Nat} (h : s.entry t = some e) (sent : e.state = .sent)
    (timer : e.replyTimer = .running ms) : exec (.replyTimerExpiry t) s = .next (s.expireReply t e).settle := by
  have expires : (decide (e.state = .sent) && e.replyTimer.isRunning) = true := by rw [sent, timer]; rfl
  simp only [exec, execReplyTimerExpiry, h, expires, if_true]

theorem expireReply_aborting (h : e.aborting = true) : s.expireReply t e = s.retire t .aborted := by
  rw [State.expireReply, if_pos h]

theorem expireReply_retry (entry : s.entry t = some e) (h : e.aborting = false) (left : e.attempts < s.attemptLimit) :
    s.expireReply t e = (s.setEntry t (some { e with state := .waitingCredit, replyTimer := .stopped })).modPeer e.peer
      fun q => { q with waitList := q.waitList ++ [t] } := by
  rw [State.expireReply, if_neg (by simp [h]), if_pos left, joinWaitList_eq entry]

theorem expireReply_timeout (h : e.aborting = false) (none : s.attemptLimit ≤ e.attempts) :
    s.expireReply t e = s.retire t (.failed .timeout) := by
  rw [State.expireReply, if_neg (by simp [h]), if_neg (Nat.not_lt.2 none)]

/-! ## Which entry a reply settles (R137) -/

/-- Every condition of R137 holds between the reply and the entry with its tag. -/
def Matches (s : State) (r : ReplyHeard) (e : Entry) : Prop :=
  e.peer = r.source ∧ e.seq = some r.seq ∧ s.station.incarnation = some r.echo ∧ e.kind = r.kind ∧
    (r.kind = .read → r.status = .done → r.payload.length = e.length) ∧
    (e.state = .waitingCredit ∨ e.state = .queued ∨ e.state = .sent)

theorem replyMatches_iff (s : State) (r : ReplyHeard) (e : Entry) : s.replyMatches r e = true ↔ Matches s r e := by
  have lengths : (r.kind = .write ∨ r.status ≠ .done) ∨ r.payload.length = e.length ↔
      (r.kind = .read → r.status = .done → r.payload.length = e.length) := by
    cases r.kind <;> simp [or_iff_not_imp_left]
  simp only [State.replyMatches, Matches, Bool.and_eq_true, Bool.or_eq_true, decide_eq_true_eq, ← lengths, and_assoc,
    or_assoc, eq_comm (a := r.source), eq_comm (a := r.kind) (b := e.kind)]

theorem takeReply_unmatched (h : ∀ e, s.entry r.tag = some e → ¬ Matches s r e) : s.takeReply r = s := by
  unfold State.takeReply
  split
  · rfl
  · rw [if_neg fun m => h _ ‹_› ((replyMatches_iff s r _).1 m)]

theorem takeReply_matched (entry : s.entry r.tag = some e) (m : Matches s r e) : s.takeReply r = s.settleReply r e := by
  rw [State.takeReply, entry]
  exact if_pos ((replyMatches_iff s r e).2 m)

/-! ## How it is settled (R59, R138, R139, R141, R144) -/

/-- What is left of `s` when a reply has found entry `e` in WAITING-CREDIT, QUEUED or SENT (R138, R139). -/
def leftByReply (s : State) (t : Tag) (e : Entry) : State :=
  match e.state with
  | .waitingCredit => s.leaveWaitList t e.peer
  | .queued => (s.withdrawRequest t).returnCredit e.peer
  | .loading | .sent | .storing => s

theorem leftByReply_entry (s : State) (t v : Tag) (e : Entry) : (leftByReply s t e).entry v = s.entry v := by
  unfold leftByReply
  split <;> simp

/-- The entry keeps all but its reply timer. -/
theorem leaveForReply_eq (entry : s.entry t = some e) : ∃ ms,
    s.leaveForReply t e = (leftByReply s t e).setEntry t (some (withReplyTimer e ms)) := by
  have same : leftByReply s t e = (leftByReply s t e).setEntry t (some (withReplyTimer e e.replyTimer)) :=
    (setEntry_same ((leftByReply_entry s t t e).trans entry)).symm
  unfold State.leaveForReply
  cases state : e.state with
  | sent =>
    refine ⟨.stopped, ?_⟩
    simp only [leftByReply, state]
    exact modEntry_eq entry _
  | waitingCredit | queued | loading | storing =>
    refine ⟨e.replyTimer, Eq.trans ?_ same⟩
    simp only [leftByReply, state]

/-- A reply has found entry `e`, and `u` is the state that the entry leaves but for its timer. -/
structure Settles (s : State) (r : ReplyHeard) (e : Entry) (u : State) : Prop where
  taken : s.takeReply r = s.settleReply r e
  left : ∃ ms, s.leaveForReply r.tag e = u.setEntry r.tag (some (withReplyTimer e ms))
  entry : u.entry r.tag = some e

theorem settles_of_matches (entry : s.entry r.tag = some e) (m : Matches s r e) :
    Settles s r e (leftByReply s r.tag e) where
  taken := takeReply_matched entry m
  left := leaveForReply_eq entry
  entry := (leftByReply_entry s r.tag r.tag e).trans entry

namespace Settles

theorem retires (h : Settles s r e u) {o : PieceOutcome}
    (settled : s.settleReply r e = (s.leaveForReply r.tag e).retire r.tag o) : s.takeReply r = u.retire r.tag o := by
  obtain ⟨ms, left⟩ := h.left
  rw [h.taken, settled, left, retire_setTimer h.entry]

theorem written (h : Settles s r e u) (done : r.status = .done) (kind : e.kind = .write) :
    s.takeReply r = u.retire r.tag .done :=
  h.retires (by simp only [State.settleReply, done, if_pos kind])

theorem readAborted (h : Settles s r e u) (done : r.status = .done) (kind : e.kind = .read) (aborting : e.aborting = true) :
    s.takeReply r = u.retire r.tag .aborted :=
  h.retires (by simp [State.settleReply, done, kind, State.settleRead, aborting])

theorem read (h : Settles s r e u) (done : r.status = .done) (kind : e.kind = .read) (aborting : e.aborting = false) :
    s.takeReply r = (u.setEntry r.tag
      (some { e with state := .storing, replyTimer := .stopped, buffer := r.payload })).queueOutbound
        (storeAccess r.tag e r.payload) := by
  obtain ⟨ms, left⟩ := h.left
  have settled : s.settleReply r e = (s.leaveForReply r.tag e).settleRead r.tag e r.payload := by
    simp [State.settleReply, done, kind]
  rw [h.taken, settled, left, State.settleRead, if_neg (by simp [aborting]), modEntry_eq (State.entry_setEntry_self u _ _),
    setEntry_setEntry]
  rfl

theorem failed (h : Settles s r e u) :
    (r.status = .refusedAccess → s.takeReply r = u.retire r.tag (.failed .refusedAccess)) ∧
    (r.status = .refusedRange → s.takeReply r = u.retire r.tag (.failed .refusedRange)) ∧
    (r.status = .localError → s.takeReply r = u.retire r.tag (.failed .remoteLocal)) :=
  ⟨fun status => h.retires (by simp only [State.settleReply, status]),
    fun status => h.retires (by simp only [State.settleReply, status]),
    fun status => h.retires (by simp only [State.settleReply, status])⟩

/-- R59: a NO-CREDIT takes the held credits. -/
theorem noCredit (h : Settles s r e u) (status : r.status = .noCredit) : ∃ ms, s.takeReply r =
    let v := (u.modPeer e.peer fun q => { q with held := 0 }).setEntry r.tag (some (withReplyTimer e ms))
    if e.aborting then v.retire r.tag .aborted else v.joinWaitList r.tag e.peer := by
  obtain ⟨ms, left⟩ := h.left
  refine ⟨ms, ?_⟩
  simp only [h.taken, State.settleReply, status, State.settleNoCredit, left]
  rfl

theorem noCreditAborted (h : Settles s r e u) (status : r.status = .noCredit) (aborting : e.aborting = true) :
    s.takeReply r = (u.modPeer e.peer fun q => { q with held := 0 }).retire r.tag .aborted := by
  obtain ⟨ms, settled⟩ := h.noCredit status
  rw [settled]
  dsimp only
  rw [if_pos aborting]
  exact retire_setTimer (s := u.modPeer e.peer _) h.entry ms .aborted

theorem noCreditRetried (h : Settles s r e u) (status : r.status = .noCredit) (aborting : e.aborting = false) :
    s.takeReply r = ((u.modPeer e.peer fun q => { q with held := 0 }).setEntry r.tag
      (some { e with state := .waitingCredit, replyTimer := .stopped })).modPeer e.peer
        fun q => { q with waitList := q.waitList ++ [r.tag] } := by
  obtain ⟨ms, settled⟩ := h.noCredit status
  rw [settled]
  dsimp only
  rw [if_neg (by simp [aborting]), joinWaitList_eq (State.entry_setEntry_self _ _ _), setEntry_setEntry]
  rfl

end Settles

/-! ## The rows (R21, R23) -/

theorem statusOfByte_code (status : ReplyStatus) : statusOfByte (BitVec.ofNat 8 status.code) = some status := by
  cases status <;> rfl

theorem wfReply_code {tag : Byte} (h : tag.toNat < 16) (status : ReplyStatus) :
    wfReply tag (BitVec.ofNat 8 status.code) = true := by
  have code : decide ((BitVec.ofNat 8 status.code).toNat ≤ 4) = true := by cases status <;> rfl
  rw [wfReply, wfTag, decide_eq_true h, code, Bool.and_self]

/-- R21: a DATA carries 1 to 64 bytes with DONE, none with any other status. -/
theorem wfDataLength_code {status : ReplyStatus} {payload : List Byte}
    (done : status = .done → 1 ≤ payload.length ∧ payload.length ≤ 64) (other : status ≠ .done → payload = []) :
    wfDataLength (BitVec.ofNat 8 status.code) payload.length = true := by
  cases status with
  | done => simpa [wfDataLength, ReplyStatus.code] using done rfl
  | refusedAccess | refusedRange | noCredit | localError => simp [wfDataLength, ReplyStatus.code, other]

theorem deliverReply_eq (s : State) (p : Station) (inc : Byte) (kind : ReqKind) (tag seq echo : Byte)
    (status : ReplyStatus) (payload : List Byte) :
    s.deliverReply p inc kind tag seq echo (BitVec.ofNat 8 status.code) payload =
      (s.presenceUpdate p inc none false).takeReply
        { source := p, kind, tag := tagOfByte tag, seq, echo, status, payload } := by
  rw [State.deliverReply, statusOfByte_code]

theorem exec_ackHeard {source tag : Byte} {p : Station} (h : Hearing s source p) (htag : tag.toNat < 16)
    (inc seq echo : Byte) (status : ReplyStatus) :
    exec (.ackHeard source inc tag seq echo (BitVec.ofNat 8 status.code)) s = .next ((delivered s p inc).takeReply
      { source := p, kind := .write, tag := tagOfByte tag, seq, echo, status, payload := [] }).settle := by
  rw [exec, execAckHeard, wfReply_code htag, State.hearFrom_hearing h, deliverReply_eq]
  rfl

theorem exec_dataHeard {source tag : Byte} {p : Station} (h : Hearing s source p) (htag : tag.toNat < 16)
    (inc seq echo : Byte) {status : ReplyStatus} {payload : List Byte}
    (done : status = .done → 1 ≤ payload.length ∧ payload.length ≤ 64) (other : status ≠ .done → payload = []) :
    exec (.dataHeard source inc tag seq echo (BitVec.ofNat 8 status.code) payload) s = .next
      ((delivered s p inc).takeReply
        { source := p, kind := .read, tag := tagOfByte tag, seq, echo, status, payload }).settle := by
  rw [exec, execDataHeard, wfReply_code htag, wfDataLength_code done other, Bool.and_self, State.hearFrom_hearing h,
    deliverReply_eq]
  rfl

/-- Settles O42: the rows, the settlement of the entry matched, and the expiry of the reply timer. -/
theorem repliesAndTimeoutsSettleEntries : Obligations.RepliesAndTimeoutsSettleEntries := by
  unfold Obligations.RepliesAndTimeoutsSettleEntries
  refine ⟨⟨fun s source inc tag seq echo status p hearing htag => ?_, fun s r => ?_⟩,
    fun s t e ms entry sent timer => ?_⟩
  · intro reply code
    exact ⟨exec_ackHeard hearing htag inc seq echo status, fun payload done other =>
      exec_dataHeard hearing htag inc seq echo done other⟩
  · intro good
    refine ⟨takeReply_unmatched, fun e entry m => ?_⟩
    have settles : Settles s r e (leftByReply s r.tag e) := settles_of_matches entry m
    obtain ⟨access, range, remote⟩ := settles.failed
    exact ⟨settles.written, settles.readAborted, settles.read, access, range, remote, settles.noCreditAborted,
      settles.noCreditRetried⟩
  · rw [exec_replyTimerExpiry entry sent timer]
    refine ⟨fun aborting => ?_, fun aborting left => ?_, fun aborting none => ?_⟩
    · rw [expireReply_aborting aborting]
    · rw [expireReply_retry entry aborting left]
    · rw [expireReply_timeout aborting none]

end Sys2Proof.Credits
end

section
/-! SUPPORT. The arrival checks of an inbound slot (R74 to R77): the served record, the earlier copy, the window, the range. -/
namespace Sys2Proof.Inbound

open Sys2Proof Sys2Proof.Machine Sys2Proof.Safety

-- Each thread of the elaborator reserves 1 GB under the memory limit of the check.
set_option Elab.async false

variable {s : State} {i j : SlotNo} {x : Slot} {w : Window}

/-! ## Check 1: the served record and the earlier copy (R74, R78, R79) -/

theorem servedStatus_mem {served : List ServedPair} {seq : Byte} {status : ReplyStatus}
    (h : servedStatus served seq = some status) : ∃ pair ∈ served, pair.seq = seq ∧ pair.status = status := by
  obtain ⟨pair, found, same⟩ := Option.map_eq_some_iff.1 h
  exact ⟨pair, List.mem_of_find?_eq_some found, of_decide_eq_true (List.find?_some found :), same⟩

theorem servedStatus_eq_none_iff (served : List ServedPair) (seq : Byte) :
    servedStatus served seq = none ↔ ¬ ∃ pair ∈ served, pair.seq = seq := by
  simp [servedStatus]

/-- The served record of the requester holds the sequence of the WRITE in `x`. -/
def Recorded (s : State) (x : Slot) : Prop := x.kind = .write ∧ ∃ pair ∈ (s.peer x.requester).served, pair.seq = x.seq

/-- Slot `j` holds an earlier copy of `x`, slot `i`'s WRITE, that is still to be performed and is not stale. -/
def CopyAt (s : State) (i : SlotNo) (x : Slot) (j : SlotNo) : Prop :=
  j ≠ i ∧ ∃ y, s.slot j = some y ∧ y.requester = x.requester ∧ y.kind = .write ∧
    y.seq = x.seq ∧ y.echo = x.echo ∧ y.stale = false ∧ (y.state = .waitingLocal ∨ y.state = .accessing)

theorem isEarlierCopy_iff (x y : Slot) : x.isEarlierCopy y = true ↔ y.requester = x.requester ∧ y.kind = .write ∧
    y.seq = x.seq ∧ y.echo = x.echo ∧ y.stale = false ∧ (y.state = .waitingLocal ∨ y.state = .accessing) := by
  simp [Slot.isEarlierCopy, and_assoc]

theorem earlierCopy_copyAt (h : s.earlierCopy i x = some j) : CopyAt s i x j := by
  obtain ⟨other, copy⟩ := Bool.and_eq_true_iff.1 (List.find?_some h :)
  refine ⟨of_decide_eq_true other, ?_⟩
  cases slot : s.slot j with
  | none => simp [slot] at copy
  | some y => exact ⟨y, rfl, (isEarlierCopy_iff x y).1 (by simpa [slot] using copy)⟩

theorem not_copyAt_of_earlierCopy_none (h : s.earlierCopy i x = none) (j : SlotNo) : ¬ CopyAt s i x j := by
  rintro ⟨other, y, slot, copy⟩
  have passed := List.find?_eq_none.1 h j (PeerTable.mem_allSlots j)
  simp [other, slot, (isEarlierCopy_iff x y).2 copy] at passed

/-! ## Checks 2 to 4: the window, the range, the access (R75 to R77) -/

/-- The window, its mask or its rights refuse the request in `x`. -/
def Denied (w : Window) (x : Slot) : Prop :=
  w.enabled = false ∨ w.mask.getLsbD x.requester.val = false ∨
    (x.kind = .write ∧ w.rights = .read) ∨ (x.kind = .read ∧ w.rights = .write)

theorem permits_eq_false_iff (rights : Rights) (kind : ReqKind) : rights.permits kind = false ↔
    (kind = .write ∧ rights = .read) ∨ (kind = .read ∧ rights = .write) := by
  cases rights <;> cases kind <;> decide

theorem refuses_iff (w : Window) (x : Slot) : w.refuses x.requester x.kind = true ↔ Denied w x := by
  simp [Window.refuses, inMask, Denied, permits_eq_false_iff, or_assoc]

theorem checkWindow_denied (h : Denied (s.window x.window) x) :
    s.checkWindow i x = s.refuseSlot i x .refusedAccess := by
  rw [State.checkWindow, if_pos ((refuses_iff _ x).2 h)]

theorem checkWindow_outside (h : ¬ Denied (s.window x.window) x)
    (outside : (s.window x.window).length < x.offset + x.length) :
    s.checkWindow i x = s.refuseSlot i x .refusedRange := by
  rw [State.checkWindow, if_neg (mt (refuses_iff _ x).1 h), if_pos outside]

theorem checkWindow_within (h : ¬ Denied (s.window x.window) x)
    (within : x.offset + x.length ≤ (s.window x.window).length) : s.checkWindow i x =
      (s.setSlot i (some { x with state := .waitingLocal })).queueInbound (x.access i (s.window x.window).base) := by
  rw [State.checkWindow, if_neg (mt (refuses_iff _ x).1 h), if_neg (Nat.not_lt.2 within)]

/-- R77: the access of a slot, field by field. -/
theorem access_eq (x : Slot) (i : SlotNo) (base : Nat) : x.access i base =
    { requester := match x.kind with
        | .write => .inboundWrite i
        | .read => .inboundRead i
      addr := base + x.offset, length := x.length
      bytes := match x.kind with
        | .write => x.buffer.take x.length
        | .read => [] } := by
  rw [Slot.access]
  cases x.kind <;> rfl

/-! ## The checks in their order (section 5.3) -/

theorem checkArrival_recorded (h : Recorded s x) : ∃ pair ∈ (s.peer x.requester).served, pair.seq = x.seq ∧
    s.checkArrival i x = s.replySlot i pair.status := by
  obtain ⟨kind, recorded⟩ := h
  rw [State.checkArrival, kind]
  cases status : servedStatus (s.peer x.requester).served x.seq with
  | none => exact absurd recorded ((servedStatus_eq_none_iff _ _).1 status)
  | some status' =>
    obtain ⟨pair, mem, seq, rfl⟩ := servedStatus_mem status
    exact ⟨pair, mem, seq, rfl⟩

/-- A WRITE that is not in the served record waits behind its earlier copy, if it has one. -/
theorem checkArrival_write (kind : x.kind = .write) (fresh : ¬ Recorded s x) : s.checkArrival i x =
    (s.earlierCopy i x).elim (s.checkWindow i x) fun j => s.setSlot i (some { x with behind := some j }) := by
  have absent := (servedStatus_eq_none_iff (s.peer x.requester).served x.seq).2 fun h => fresh ⟨kind, h⟩
  simp only [State.checkArrival, kind, absent]
  cases s.earlierCopy i x <;> rfl

theorem checkArrival_copied (fresh : ¬ Recorded s x) (h : x.kind = .write ∧ ∃ j, CopyAt s i x j) :
    ∃ j, CopyAt s i x j ∧ s.checkArrival i x = s.setSlot i (some { x with behind := some j }) := by
  obtain ⟨kind, j, copy⟩ := h
  rw [checkArrival_write kind fresh]
  cases found : s.earlierCopy i x with
  | none => exact absurd copy (not_copyAt_of_earlierCopy_none found j)
  | some k => exact ⟨k, earlierCopy_copyAt found, rfl⟩

theorem checkArrival_window (fresh : ¬ Recorded s x) (alone : ¬ (x.kind = .write ∧ ∃ j, CopyAt s i x j)) :
    s.checkArrival i x = s.checkWindow i x := by
  cases kind : x.kind with
  | read => rw [State.checkArrival, kind]
  | write =>
    rw [checkArrival_write kind fresh]
    cases found : s.earlierCopy i x with
    | none => rfl
    | some j => exact absurd ⟨kind, j, earlierCopy_copyAt found⟩ alone

/-- Settles O35: check 1 by the served record and the earlier copy, then the window, its range and the access. -/
theorem arrivalChecksDecideInOrder : Obligations.ArrivalChecksDecideInOrder := by
  unfold Obligations.ArrivalChecksDecideInOrder
  intro s i x _ w served copyAt recorded copied denied t
  refine ⟨checkArrival_recorded, checkArrival_copied, fun fresh alone refused => ?_,
    fun fresh alone permitted outside => ?_, fun fresh alone permitted within => ?_⟩
  · exact (checkArrival_window fresh alone).trans (checkWindow_denied refused)
  · exact (checkArrival_window fresh alone).trans (checkWindow_outside permitted outside)
  · exact (checkArrival_window fresh alone).trans ((checkWindow_within permitted within).trans
      (congrArg _ (access_eq x i w.base)))

end Sys2Proof.Inbound
end

section
/-! SUPPORT. Setting up: SET WINDOW and SET RING (R69, R164), their operands and their parameters. -/
namespace Sys2Proof.Inbound

open Sys2Proof Sys2Proof.Machine Sys2Proof.Safety

-- Each thread of the elaborator reserves 1 GB under the memory limit of the check.
set_option Elab.async false

variable {s : State} {op : Byte} {w : WindowNo} {rights : Rights}

/-! ## Operands and parameters (R175) -/

theorem windowOperand_number (h : w.val = op.toNat % 16) :
    windowOperand (BitVec.ofNat 8 (windowNumberOf op)) = some w :=
  HostViews.windowOperand_eq (by rw [windowNumberOf, BitVec.toNat_ofNat]; omega)

theorem windowOperand_number_above (h : 7 < op.toNat % 16) :
    windowOperand (BitVec.ofNat 8 (windowNumberOf op)) = none :=
  HostViews.windowOperand_above (by rw [windowNumberOf, BitVec.toNat_ofNat]; omega)

theorem rightsOfCode_code (rights : Rights) : rightsOfCode rights.code = some rights := by cases rights <;> rfl

/-- Every rights code of the operand but 0 names rights. -/
theorem exists_rights_of_code (h : 1 ≤ op.toNat / 64) : ∃ rights : Rights, rights.code = op.toNat / 64 := by
  obtain h1 | h2 | h3 : op.toNat / 64 = 1 ∨ op.toNat / 64 = 2 ∨ op.toNat / 64 = 3 := by omega
  · exact ⟨.read, h1.symm⟩
  · exact ⟨.write, h2.symm⟩
  · exact ⟨.readWrite, h3.symm⟩

theorem maskAccepted_iff (s : State) (m : Word) : s.maskAccepted m = true ↔
    ∀ p : Station, m.getLsbD p.val = true → p.val < s.stationCount ∧ p.val ≠ s.own := by
  have mem (p : Station) : p ∈ allStations := by revert p; decide
  simp only [State.maskAccepted, List.all_eq_true, inMask, Bool.or_eq_true, Bool.and_eq_true, decide_eq_true_eq,
    Bool.not_eq_true', ← Bool.not_eq_true, ← imp_iff_not_or]
  exact ⟨fun h p => h p (mem p), fun h p _ => h p⟩

/-! ## SET WINDOW (R69) -/

/-- The parameters of SET WINDOW other than the window number and the rights are in range. -/
def WindowFits (s : State) : Prop :=
  1 ≤ s.windowLength ∧ s.windowLength ≤ 1048576 ∧ s.windowBase + s.windowLength ≤ 0x1000000 ∧
    ∀ p : Station, (s.param 3).getLsbD p.val = true → p.val < s.stationCount ∧ p.val ≠ s.own

theorem windowFits_iff (s : State) : (s.windowBase < Config.localSize && 1 ≤ s.windowLength
    && s.windowLength ≤ Config.offsetSize && s.windowBase + s.windowLength ≤ Config.localSize
    && s.maskAccepted (s.param 3)) = true ↔ WindowFits s := by
  simp only [Bool.and_eq_true, decide_eq_true_eq, maskAccepted_iff]
  rw [Config.localSize, Config.offsetSize, WindowFits]
  constructor
  · rintro ⟨⟨⟨⟨-, low⟩, high⟩, fits⟩, mask⟩
    exact ⟨low, high, fits, mask⟩
  · rintro ⟨low, high, fits, mask⟩
    exact ⟨⟨⟨⟨by omega, low⟩, high⟩, fits⟩, mask⟩

theorem exec_setWindow_wrongState (running : s.phase = .running) (h : s.station.state ≠ some .offline) :
    exec (.setWindow op) s = .next (answeredOnly s 0x05 op wrongState) := by
  have u : (commanded s Config.codeSetWindow op).station.state ≠ some .offline := h
  simp only [exec, execSetWindow, State.takeCommand_running running, State.inStateOnly_of_ne u]
  rfl

theorem exec_setWindow_accepted (running : s.phase = .running) (offline : s.station.state = some .offline)
    (number : w.val = op.toNat % 16) (code : rights.code = op.toNat / 64) (fits : WindowFits s) :
    exec (.setWindow op) s = .next (resulted ((commanded s 0x05 op).setWindowAt w
      { enabled := op.getLsbD 4, base := s.windowBase, length := s.windowLength, rights
        mask := s.param 3, watch := op.getLsbD 5, notice := none }) 0x05 accepted) := by
  have u : (commanded s Config.codeSetWindow op).station.state = some .offline := offline
  simp only [exec, execSetWindow, State.takeCommand_running running, State.inStateOnly_of_eq u,
    windowOperand_number number, ← code, rightsOfCode_code,
    if_pos ((windowFits_iff (commanded s Config.codeSetWindow op)).2 fits)]
  rfl

theorem exec_setWindow_refused (running : s.phase = .running) (offline : s.station.state = some .offline)
    (h : ¬ (op.toNat % 16 ≤ 7 ∧ 1 ≤ op.toNat / 64 ∧ WindowFits s)) :
    exec (.setWindow op) s = .next (answeredOnly s 0x05 op badParameter) := by
  have u : (commanded s Config.codeSetWindow op).station.state = some .offline := offline
  simp only [exec, execSetWindow, State.takeCommand_running running, State.inStateOnly_of_eq u]
  by_cases number : op.toNat % 16 ≤ 7
  · rw [windowOperand_number (w := ⟨op.toNat % 16, by omega⟩) rfl]
    by_cases code : 1 ≤ op.toNat / 64
    · obtain ⟨rights, hcode⟩ := exists_rights_of_code code
      have unfit : ¬ WindowFits (commanded s Config.codeSetWindow op) := fun fits => h ⟨number, code, fits⟩
      simp only [← hcode, rightsOfCode_code, if_neg (mt (windowFits_iff _).1 unfit)]
      rfl
    · rw [show op.toNat / 64 = 0 by omega]
      rfl
  · rw [windowOperand_number_above (by omega)]
    rfl

/-! ## SET RING (R164) -/

/-- The parameters of SET RING are in range. -/
def RingFits (s : State) : Prop :=
  s.param32 % 16 = 0 ∧ s.param32 ≤ 0xFFFFF0 ∧ isRingSize s.ringSize ∧ s.param32 + 16 * s.ringSize ≤ 0x1000000

theorem ringSizes_contains_iff (n : Nat) : ringSizes.contains n = true ↔ isRingSize n := by
  simp [ringSizes, isRingSize]

theorem ringFits_iff (s : State) : (s.param32 % 16 = 0 && s.param32 ≤ 0xFFFFF0 && ringSizes.contains s.ringSize
    && s.param32 + 16 * s.ringSize ≤ Config.localSize) = true ↔ RingFits s := by
  simp only [Bool.and_eq_true, decide_eq_true_eq, ringSizes_contains_iff, and_assoc]
  rw [Config.localSize, RingFits]

theorem exec_setRing_wrongState (running : s.phase = .running) (h : s.station.state ≠ some .offline) :
    exec (.setRing op) s = .next (answeredOnly s 0x06 op wrongState) := by
  have u : (commanded s Config.codeSetRing op).station.state ≠ some .offline := h
  simp only [exec, execSetRing, State.takeCommand_running running, State.inStateOnly_of_ne u]
  rfl

theorem exec_setRing_accepted (running : s.phase = .running) (offline : s.station.state = some .offline)
    (fits : RingFits s) : exec (.setRing op) s = .next (resulted { commanded s 0x06 op with ring := { s.ring with
      config := some { base := s.param32, size := s.ringSize }, producer := 0#16, consumer := 0#16 } }
      0x06 accepted) := by
  have u : (commanded s Config.codeSetRing op).station.state = some .offline := offline
  simp only [exec, execSetRing, State.takeCommand_running running, State.inStateOnly_of_eq u,
    if_pos ((ringFits_iff (commanded s Config.codeSetRing op)).2 fits)]
  rfl

theorem exec_setRing_refused (running : s.phase = .running) (offline : s.station.state = some .offline)
    (h : ¬ RingFits s) : exec (.setRing op) s = .next (answeredOnly s 0x06 op badParameter) := by
  have u : (commanded s Config.codeSetRing op).station.state = some .offline := offline
  have unfit : ¬ RingFits (commanded s Config.codeSetRing op) := h
  simp only [exec, execSetRing, State.takeCommand_running running, State.inStateOnly_of_eq u,
    if_neg (mt (ringFits_iff _).1 unfit)]
  rfl

/-- Settles O12: each command by the station state, and in OFFLINE by its parameters. -/
theorem settingUpTakesWindowsAndRing : Obligations.SettingUpTakesWindowsAndRing := by
  unfold Obligations.SettingUpTakesWindowsAndRing
  refine ⟨fun op s running h => ⟨exec_setWindow_wrongState running h, exec_setRing_wrongState running h⟩,
    fun op s running offline => ?_, fun op s running offline => ?_⟩
  · intro base length good
    have good_iff : good ↔ op.toNat % 16 ≤ 7 ∧ 1 ≤ op.toNat / 64 ∧ WindowFits s :=
      ⟨fun ⟨number, low, high, fits, code, mask⟩ => ⟨number, code, low, high, fits, mask⟩,
        fun ⟨number, code, low, high, fits, mask⟩ => ⟨number, low, high, fits, code, mask⟩⟩
    refine ⟨fun h w rights number code => ?_, fun h => exec_setWindow_refused running offline (mt good_iff.2 h)⟩
    obtain ⟨-, -, fits⟩ := good_iff.1 h
    exact exec_setWindow_accepted running offline number code fits
  · exact ⟨exec_setRing_accepted running offline, exec_setRing_refused running offline⟩

end Sys2Proof.Inbound
end

section
/-! SUPPORT. A slot's reply, the served pair, the watch notice, and the end of an inbound access (R78 to R82, R86, R159). -/
namespace Sys2Proof.Inbound

open Sys2Proof Sys2Proof.Machine Sys2Proof.Safety

-- Each thread of the elaborator reserves 1 GB under the memory limit of the check.
set_option Elab.async false

variable {s : State} {i : SlotNo} {x : Slot} {status : ReplyStatus}

/-! ## The reply and the served pair (R78, R79, R82) -/

/-- R82: the reply of a slot, field by field. -/
theorem reply_eq (x : Slot) (i : SlotNo) (status : ReplyStatus) : x.reply i status =
    { owner := .slot i, dest := x.requester, kind := x.kind, tag := x.tag, seq := x.seq, echo := x.echo, status
      payload := if x.kind = .read ∧ status = .done then x.buffer.take x.length else [] } := by
  simp only [Slot.reply, Bool.and_eq_true, decide_eq_true_eq]

theorem replySlot_eq (slot : s.slot i = some x) : s.replySlot i status =
    (s.setSlot i (some { x with status := some status, state := .replyQueued, behind := none })).queueReply
      (x.reply i status) := by
  rw [State.replySlot, slot]

/-- R78: of four pairs the oldest leaves before the new one is taken. -/
theorem recordPair_eq (served : List ServedPair) (pair : ServedPair) :
    recordPair served pair = (if 4 ≤ served.length then served.tail else served) ++ [pair] := by
  rw [recordPair, List.drop_one, Config.servedPairs]

theorem recordServed_eq (s : State) (x : Slot) (status : ReplyStatus) : s.recordServed x status =
    if x.kind = .write ∧ x.stale = false then withPeer s x.requester { s.peer x.requester with
      served := recordPair (s.peer x.requester).served { seq := x.seq, status } } else s := by
  simp only [State.recordServed, Bool.and_eq_true, decide_eq_true_eq, Bool.not_eq_true']
  rfl

/-! ## The watch notice (R86) -/

theorem notice_of_not_written (h : x.kind = .read ∨ status ≠ .done) : s.notice x status = s := by
  have notWritten : ¬ (x.kind = .write && status = .done) = true := by
    simp only [Bool.and_eq_true, decide_eq_true_eq]
    rintro ⟨write, done⟩
    obtain read | other := h
    · exact absurd (write.symm.trans read) (by decide)
    · exact other done
  rw [State.notice, if_neg notWritten]

theorem setWindowAt_window (s : State) (w : WindowNo) : s.setWindowAt w (s.window w) = s := by
  have same : s.windows.set w (s.window w) = s.windows := Vector.set_getElem_self w.isLt
  rw [State.setWindowAt, same]

theorem notice_unwatched (h : (s.window x.window).watch = false) : s.notice x status = s := by
  have kept : (s.window x.window).noticed x.requester x.offset = s.window x.window := by
    rw [Window.noticed, h]
    rfl
  rw [State.notice, kept, setWindowAt_window, ite_self]

theorem notice_written (kind : x.kind = .write) : s.notice x .done =
    s.setWindowAt x.window ((s.window x.window).noticed x.requester x.offset) := by
  rw [State.notice, kind]
  rfl

theorem noticed_first {w : Window} (watch : w.watch = true) (idle : w.notice = none) (p : Station) (offset : Nat) :
    w.noticed p offset =
      { w with notice := some { firstPeer := p, firstOffset := offset, lastPeer := p, count := 1 } } := by
  rw [Window.noticed, if_pos watch, idle]

theorem noticed_again {w : Window} {n : Notice} (watch : w.watch = true) (pending : w.notice = some n) (p : Station)
    (offset : Nat) :
    let next := { n with lastPeer := p, count := if n.count < 65535 then n.count + 1 else 65535 }
    w.noticed p offset = { w with notice := some next } := by
  have capped : min 65535 (n.count + 1) = if n.count < 65535 then n.count + 1 else 65535 := by
    split <;> omega
  simp only [Window.noticed, if_pos watch, pending, capped]

/-- Settles O36: the reply and the served pair, then the notice by the watch flag and by what it holds. -/
theorem slotsReplyRecordAndNotify : Obligations.SlotsReplyRecordAndNotify := by
  unfold Obligations.SlotsReplyRecordAndNotify
  refine ⟨fun s i x status slot => ⟨?_, ?_⟩, fun s x => ⟨fun status h => ?_, fun kind watch => ⟨?_, ?_⟩⟩⟩
  · rw [replySlot_eq slot, reply_eq]
    rfl
  · rw [recordServed_eq, recordPair_eq]
  · obtain read | other | unwatched := h
    · exact notice_of_not_written (.inl read)
    · exact notice_of_not_written (.inr other)
    · exact notice_unwatched unwatched
  · intro idle
    rw [notice_written kind, noticed_first watch idle]
  · intro n pending
    rw [notice_written kind, noticed_again watch pending]

/-! ## The end of an inbound access (R81, R162, R163) -/

/-- The requester of the inbound access of a slot (R77). -/
def inboundRequester (kind : ReqKind) (i : SlotNo) : Requester :=
  match kind with
  | .write => .inboundWrite i
  | .read => .inboundRead i

theorem exec_inboundAccessEnd {cur : CurrentAccess} (current : s.port.current = some cur)
    (requester : cur.access.requester = inboundRequester x.kind i) (outcome : AccessEnd) :
    exec (.inboundAccessEnd outcome) s = .next
      (s.finishAccess cur outcome fun u => u.endSlotAccess i cur.access.addr outcome) := by
  rw [exec, execInboundAccessEnd, current]
  cases kind : x.kind <;> simp only [requester, kind, inboundRequester]

theorem finishAccess_dropped {cur : CurrentAccess} (h : cur.dropped = true) (e : AccessEnd) (report : State → State) :
    s.finishAccess cur e report = (portIdle (s.applyWrite cur.access e)).settle := by
  rw [State.finishAccess, h]
  rfl

theorem finishAccess_reported {cur : CurrentAccess} (h : cur.dropped = false) (e : AccessEnd)
    (report : State → State) :
    s.finishAccess cur e report = (portIdle (report (s.applyWrite cur.access e))).settle := by
  rw [State.finishAccess, h]
  rfl

theorem applyWrite_slot (s : State) (a : Access) (e : AccessEnd) (i : SlotNo) : (s.applyWrite a e).slot i = s.slot i := by
  rw [State.applyWrite]
  split <;> rfl

/-- The served pair and the notice leave the inbound server alone. -/
theorem recordServed_inbound (s : State) (x : Slot) (status : ReplyStatus) :
    (s.recordServed x status).inbound = s.inbound := by
  rw [State.recordServed]
  split <;> rfl

theorem notice_inbound (s : State) (x : Slot) (status : ReplyStatus) : (s.notice x status).inbound = s.inbound := by
  rw [State.notice]
  split <;> rfl

/-- The waiting copies stand in the inbound server. -/
theorem waitersBehind_congr {t : State} (h : t.inbound = s.inbound) (i : SlotNo) :
    t.waitersBehind i = s.waitersBehind i := by
  simp only [State.waitersBehind, State.slot, h]

/-- The slot whose inbound access from `first` has ended: a READ's buffer holds the bytes that have reached it (R159). -/
def heldAfter (x : Slot) (first : Nat) (outcome : AccessEnd) : Slot :=
  match x.kind with
  | .write => x
  | .read => { x with buffer := readBuffer first x.length outcome }

/-- The status that the end of an inbound access decides (R81). -/
def statusAfter (outcome : AccessEnd) : ReplyStatus := if endedOk outcome then .done else .localError

/-- R81: the pair, the notice, the reply, then the copies that wait. -/
theorem endSlotAccess_eq (slot : s.slot i = some x) (first : Nat) (outcome : AccessEnd) :
    s.endSlotAccess i first outcome =
      let y := heldAfter x first outcome
      let status := statusAfter outcome
      let v := s.setSlot i (some y)
      (v.waitersBehind i).foldl (fun v j => v.replySlot j status)
        (((v.recordServed y status).notice y status).replySlot i status) := by
  simp only [State.endSlotAccess, slot]
  exact congrArg (List.foldl _ _)
    (waitersBehind_congr ((notice_inbound _ _ _).trans (recordServed_inbound _ _ _)) i)

/-! ## The bytes of a READ (R158, R159) -/

theorem fitBytes_length (len : Nat) (data : List Byte) : (fitBytes len data).length = len := by
  simp [fitBytes, bytesAt]

theorem fitBytes_getElem? {len j : Nat} (h : j < len) (data : List Byte) :
    (fitBytes len data)[j]? = some (data.getD j 0#8) := by
  simp [fitBytes, bytesAt, h]

theorem cycleOf_mono (first : Nat) {a b : Nat} (h : a ≤ b) : cycleOf first a ≤ cycleOf first b := by
  unfold cycleOf
  omega

/-- Of a test that, once failed, fails for good, the passes among the numbers below `len` are the first ones. -/
theorem lt_countP_range_iff {f : Nat → Bool} (initial : ∀ j k, j ≤ k → f k = true → f j = true) {len j : Nat}
    (h : j < len) : j < (List.range len).countP f ↔ f j = true := by
  induction len with
  | zero => omega
  | succ n ih =>
    have bound : (List.range n).countP f ≤ n := List.countP_le_length.trans_eq List.length_range
    rw [List.range_succ, List.countP_append, List.countP_singleton]
    by_cases last : f n = true
    · have all : (List.range n).countP f = n := by
        rw [List.countP_eq_length.2 fun k hk => initial k n (List.mem_range.1 hk).le last, List.length_range]
      simp only [last, all, if_true, h, true_iff]
      exact initial j n (Nat.lt_succ_iff.1 h) last
    · rw [if_neg last, Nat.add_zero]
      obtain lt | rfl := Nat.lt_succ_iff_lt_or_eq.1 h
      · exact ih lt
      · exact iff_of_false (Nat.not_lt.2 bound) last

theorem bytesBefore_le (first len n : Nat) : bytesBefore first len n ≤ len :=
  List.countP_le_length.trans_eq List.length_range

/-- The bytes of the cycles before cycle `n` are the first ones of the access. -/
theorem lt_bytesBefore_iff {first len j : Nat} (h : j < len) (n : Nat) :
    j < bytesBefore first len n ↔ (first + j) / 2 - first / 2 < n := by
  have initial (j k : Nat) (le : j ≤ k) : decide (cycleOf first (first + k) < n) = true →
      decide (cycleOf first (first + j) < n) = true := by
    simpa only [decide_eq_true_eq] using (cycleOf_mono first (Nat.add_le_add_left le first)).trans_lt
  exact (lt_countP_range_iff initial h).trans decide_eq_true_iff

theorem failingCycle_eq {len : Nat} (h : 1 ≤ len) (first cycle : Nat) :
    failingCycle first len cycle = min cycle ((first + len - 1) / 2 - first / 2) := by
  rw [failingCycle, cycleCount, if_neg (by omega), Nat.add_sub_cancel, cycleOf]

/-- Settles O37: the end of the access, dropped or reported to its slot, and the bytes in a READ's buffer. -/
theorem inboundAccessEndAnswersTheSlot : Obligations.InboundAccessEndAnswersTheSlot := by
  unfold Obligations.InboundAccessEndAnswersTheSlot
  refine ⟨fun s cur i x outcome current requester => ⟨fun dropped => ?_, fun reported slot => ?_⟩,
    fun first len data long => ⟨?_, fun cycle low high => ?_⟩⟩
  · rw [exec_inboundAccessEnd current requester, finishAccess_dropped dropped]
  · rw [exec_inboundAccessEnd current requester, finishAccess_reported reported,
      endSlotAccess_eq ((applyWrite_slot s _ _ i).trans slot)]
    rfl
  · exact ⟨fitBytes_length len data, fun j h => fitBytes_getElem? h data⟩
  · have length := fitBytes_length (bytesBefore first len (failingCycle first len cycle)) data
    refine ⟨length.trans_le (bytesBefore_le _ _ _), fun j h => ?_, fun j h => fitBytes_getElem? (length ▸ h) data⟩
    rw [readBuffer, length, lt_bytesBefore_iff h, failingCycle_eq long]

end Sys2Proof.Inbound
end

section
/-! SUPPORT. Which descriptor copies are valid (R89 to R102): the fields of a copy, and the range test of the four corner
pieces, which decides for every byte of every piece. -/
namespace Sys2Proof.Descriptors

open Sys2Proof Sys2Proof.Machine Sys2Proof.Safety

-- Each thread of the elaborator reserves 1 GB under the memory limit of the check.
set_option Elab.async false

variable {d : List Byte} {own n i : Nat}

/-! ## Fields (section 6.1) -/

theorem descField_two (d : List Byte) (i : Nat) : descField d i 2 = descByte d i + 256 * descByte d (i + 1) := rfl

theorem descField_three (d : List Byte) (i : Nat) :
    descField d i 3 = descByte d i + 256 * descByte d (i + 1) + 65536 * descByte d (i + 2) := by
  change descByte d i + 256 * (descByte d (i + 1) + 256 * descByte d (i + 2)) = _
  omega

theorem descField_four (d : List Byte) (i : Nat) : descField d i 4 =
    descByte d i + 256 * descByte d (i + 1) + 65536 * descByte d (i + 2) + 16777216 * descByte d (i + 3) := by
  change descByte d i + 256 * (descByte d (i + 1) + 256 * (descByte d (i + 2) + 256 * descByte d (i + 3))) = _
  omega

theorem descByte_lt (d : List Byte) (i : Nat) : descByte d i < 256 := (d.getD i 0#8).isLt

theorem descFlag_eq (d : List Byte) (k : Nat) : descFlag d k = decide (descByte d 1 / 2 ^ k % 2 = 1) :=
  Nat.testBit_eq_decide_div_mod_eq

theorem toNat_descMask (d : List Byte) : (descMask d).toNat = descByte d 2 + 256 * descByte d 3 := by
  rw [descMask, wordOfBytes, BitVec.toNat_append, ← Nat.shiftLeft_add_eq_or_of_lt (descByte_lt d 2), Nat.shiftLeft_eq]
  change descByte d 3 * 256 + descByte d 2 = _
  omega

/-! ## The conditions of each kind (R101) -/

/-- R91, R99: the flags above bit 4 are 0, and a chained descriptor is aligned. -/
theorem descCommonOk_iff : descCommonOk d = true ↔
    descByte d 0 ≤ 2 ∧ descByte d 1 < 32 ∧ (descByte d 1 / 2 % 2 = 1 → descByte d 24 % 32 = 0) := by
  have aligned : descNext d % 32 = descByte d 24 % 32 := by
    rw [descNext, descField_three]
    omega
  have byte := descByte_lt d 1
  simp only [descCommonOk, Bool.and_eq_true, Bool.or_eq_true, Bool.not_eq_true', decide_eq_true_eq]
  simp only [descKind, descChain, descFlag_eq, decide_eq_false_iff_not, aligned]
  omega

/-- R98: the mask of a WAIT. -/
theorem descWaitOk_iff : descWaitOk n d = true ↔
    descByte d 2 + 256 * descByte d 3 ≠ 0 ∧ descByte d 2 + 256 * descByte d 3 < 2 ^ n := by
  rw [descWaitOk, Bool.and_eq_true, decide_eq_true_eq, decide_eq_true_eq, ← toNat_descMask, ne_eq, ← BitVec.toNat_inj]
  rfl

/-! ## Pieces in range (R102) -/

/-- Byte `b` of piece `i` lies in range at both ends (R102). -/
def ByteInRange (d : List Byte) (i b : Nat) : Prop :=
  0 ≤ pieceLocal d i + b ∧ pieceLocal d i + b ≤ 0xFFFFFF ∧ 0 ≤ pieceRemote d i + b ∧ pieceRemote d i + b ≤ 0xFFFFF

/-- The first and the last byte of a piece decide for those between. -/
theorem pieceInRange_iff (long : 1 ≤ descLength d) :
    pieceInRange d i = true ↔ ∀ b < descLength d, ByteInRange d i b := by
  simp only [pieceInRange, Bool.and_eq_true, decide_eq_true_eq]
  simp only [ByteInRange, Config.localSize, Config.offsetSize]
  constructor
  · intro ends b hb
    omega
  · intro all
    have first := all 0 (by omega)
    have last := all (descLength d - 1) (by omega)
    omega

/-! ## The corner pieces (R102) -/

/-- The first byte of piece `i` at an end that begins at `first`, its rows `step` apart (R96). -/
def pieceStart (d : List Byte) (first : Nat) (step : Int) (i : Nat) : Int :=
  (first : Int) + ((i / descPerRow d : Nat) : Int) * step + ((i % descPerRow d * descLength d : Nat) : Int)

theorem descPerRow_pos (d : List Byte) : 0 < descPerRow d := Nat.succ_pos _

/-- The piece at place `col` of row `row`. -/
theorem pieceStart_place (first : Nat) (step : Int) {row col : Nat} (h : col < descPerRow d) :
    pieceStart d first step (row * descPerRow d + col) = first + row * step + ((col * descLength d : Nat) : Int) := by
  rw [pieceStart, Nat.mul_comm row, Nat.mul_add_div (descPerRow_pos d), Nat.div_eq_of_lt h, Nat.mul_add_mod,
    Nat.mod_eq_of_lt h, Nat.add_zero]

/-- The corner pieces stand at the ends of the first and the last row. -/
theorem mem_cornerPieces {row col : Nat} (outerRow : row = 0 ∨ row = descRows d - 1)
    (outerCol : col = 0 ∨ col = descPerRow d - 1) : row * descPerRow d + col ∈ cornerPieces d := by
  have pos := descPerRow_pos d
  obtain rfl | rfl := outerRow <;> obtain rfl | rfl := outerCol <;>
    simp [cornerPieces, Nat.add_sub_assoc pos]

/-- What grows or falls evenly from row to row is least and greatest in an outer row. -/
theorem outer_rows_bound (step : Int) {row last : Nat} (h : row ≤ last) :
    ∃ lo hi, (lo = 0 ∨ lo = last) ∧ (hi = 0 ∨ hi = last) ∧
      (lo : Int) * step ≤ row * step ∧ (row : Int) * step ≤ hi * step := by
  have row_le : (row : Int) ≤ last := Int.ofNat_le.2 h
  have zero_le : ((0 : Nat) : Int) ≤ row := Int.natCast_nonneg row
  obtain rising | falling := le_total 0 step
  · exact ⟨0, last, .inl rfl, .inr rfl, mul_le_mul_of_nonneg_right zero_le rising,
      mul_le_mul_of_nonneg_right row_le rising⟩
  · exact ⟨last, 0, .inr rfl, .inl rfl, mul_le_mul_of_nonpos_right row_le falling,
      mul_le_mul_of_nonpos_right zero_le falling⟩

/-- Every piece begins between two corner pieces. -/
theorem pieceStart_between (first : Nat) (step : Int) (h : i < descRows d * descPerRow d) :
    ∃ lo ∈ cornerPieces d, ∃ hi ∈ cornerPieces d, pieceStart d first step lo ≤ pieceStart d first step i ∧
      pieceStart d first step i ≤ pieceStart d first step hi := by
  have pos := descPerRow_pos d
  have row : i / descPerRow d ≤ descRows d - 1 := by
    have := Nat.div_lt_of_lt_mul (Nat.mul_comm _ _ ▸ h)
    omega
  have col : i % descPerRow d ≤ descPerRow d - 1 := Nat.le_sub_one_of_lt (Nat.mod_lt i pos)
  have width : i % descPerRow d * descLength d ≤ (descPerRow d - 1) * descLength d := Nat.mul_le_mul_right _ col
  obtain ⟨lo, hi, outerLo, outerHi, above, below⟩ := outer_rows_bound step row
  refine ⟨_, mem_cornerPieces outerLo (.inl rfl), _, mem_cornerPieces outerHi (.inr rfl), ?_, ?_⟩
  · rw [pieceStart_place first step pos, pieceStart]
    omega
  · rw [pieceStart_place first step (Nat.sub_lt pos one_pos), pieceStart]
    omega

/-- The corner pieces are pieces. -/
theorem lt_of_mem_cornerPieces (rows : 1 ≤ descRows d) (h : i ∈ cornerPieces d) : i < descRows d * descPerRow d := by
  have pos := descPerRow_pos d
  obtain ⟨k, hk⟩ := Nat.exists_eq_add_of_le' rows
  have split : descRows d * descPerRow d = k * descPerRow d + descPerRow d := by rw [hk, Nat.succ_mul]
  simp only [cornerPieces, hk, Nat.add_sub_cancel, List.mem_cons, List.not_mem_nil, or_false] at h
  omega

theorem pieceLocal_between (h : i < descRows d * descPerRow d) : ∃ lo ∈ cornerPieces d, ∃ hi ∈ cornerPieces d,
    pieceLocal d lo ≤ pieceLocal d i ∧ pieceLocal d i ≤ pieceLocal d hi :=
  pieceStart_between (descLocal d) (descLocalStep d) h

theorem pieceRemote_between (h : i < descRows d * descPerRow d) : ∃ lo ∈ cornerPieces d, ∃ hi ∈ cornerPieces d,
    pieceRemote d lo ≤ pieceRemote d i ∧ pieceRemote d i ≤ pieceRemote d hi :=
  pieceStart_between (descOffset d) (descRemoteStep d) h

/-- R102: the range test of the corner pieces decides for every byte of every piece. -/
theorem cornerPieces_all_iff (rows : 1 ≤ descRows d) (long : 1 ≤ descLength d) :
    (cornerPieces d).all (pieceInRange d) = true ↔
      ∀ i < descRows d * descPerRow d, ∀ b < descLength d, ByteInRange d i b := by
  simp only [List.all_eq_true, pieceInRange_iff long]
  refine ⟨fun corners i hi b hb => ?_, fun all i hi => all i (lt_of_mem_cornerPieces rows hi)⟩
  obtain ⟨least, leastCorner, greatest, greatestCorner, localBounds⟩ := pieceLocal_between hi
  obtain ⟨low, lowCorner, high, highCorner, remoteBounds⟩ := pieceRemote_between hi
  obtain ⟨localLow, -, -, -⟩ := corners least leastCorner b hb
  obtain ⟨-, localHigh, -, -⟩ := corners greatest greatestCorner b hb
  obtain ⟨-, -, remoteLow, -⟩ := corners low lowCorner b hb
  obtain ⟨-, -, -, remoteHigh⟩ := corners high highCorner b hb
  unfold ByteInRange
  omega

/-- The conditions of R101 on a PUT or GET, with every byte of every piece in range in the place of the corner test. -/
theorem descTransferOk_iff : descTransferOk own n d = true ↔
    descPeer d < n ∧ descPeer d ≠ own ∧ descWindow d ≤ 7 ∧ 1 ≤ descLength d ∧ descLength d ≤ 64 ∧
      1 ≤ descRows d ∧ descRows d ≤ 4096 ∧ -8388608 ≤ descLocalStep d ∧ descLocalStep d ≤ 8388607 ∧
      -524288 ≤ descRemoteStep d ∧ descRemoteStep d ≤ 524287 ∧
      ∀ i < descRows d * descPerRow d, ∀ b < descLength d, ByteInRange d i b := by
  simp only [descTransferOk, Bool.and_eq_true, decide_eq_true_eq, and_assoc]
  simp only [and_congr_right_iff]
  intro _ _ _ long _ rows _ _ _ _ _
  exact cornerPieces_all_iff rows long

theorem descValid_iff : descValid own n d = true ↔ descCommonOk d = true ∧
    (descByte d 0 ≤ 1 → descTransferOk own n d = true) ∧ (descByte d 0 = 2 → descWaitOk n d = true) := by
  rw [descValid, Bool.and_eq_true, and_congr_right_iff]
  intro common
  obtain ⟨kind, -, -⟩ := descCommonOk_iff.1 common
  have wait : ¬ descByte d 0 ≤ 1 ↔ descByte d 0 = 2 := by omega
  rw [descKind, ← wait]
  by_cases transfer : descByte d 0 ≤ 1 <;> simp [transfer]

/-- Settles O43: R101 condition by condition, with R102's corner test read as the range of every byte of every piece. -/
theorem descriptorValidation : Obligations.DescriptorValidation := by
  unfold Obligations.DescriptorValidation
  intro own n d _ byte word step rows perRow mask at_
  have field (i : Nat) : descField d i 4 = word i := descField_four d i
  have stepOf (i : Nat) : signed32 (descField d i 4) = step i := by rw [field]; rfl
  have localByte (i b : Nat) : pieceLocal d i + b = at_ i b 4 16 := by
    rw [pieceLocal, descLocal, field, descLocalStep, stepOf, add_assoc, ← Nat.cast_add]
    rfl
  have remoteByte (i b : Nat) : pieceRemote d i + b = at_ i b 8 20 := by
    rw [pieceRemote, descOffset, field, descRemoteStep, stepOf, add_assoc, ← Nat.cast_add]
    rfl
  rw [descValid_iff, descCommonOk_iff, descTransferOk_iff, descWaitOk_iff]
  simp only [ByteInRange, localByte, remoteByte, descLocalStep, descRemoteStep, stepOf, and_assoc]
  exact Iff.rfl

end Sys2Proof.Descriptors
end

section
/-! SUPPORT. Into COMPLETING and out of it (R118, R119, R122, R150 to R152): the channel's next step by its pending status, the
record fixed at the entry, and its bytes (section 10.4). -/
namespace Sys2Proof.Descriptors

open Sys2Proof Sys2Proof.Machine Sys2Proof.Safety

-- Each thread of the elaborator reserves 1 GB under the memory limit of the check.
set_option Elab.async false

variable {s : State} {c : Chan} {status : PendingStatus}

/-! ## One channel -/

theorem setChan_setChan (s : State) (c : Chan) (x y : Channel) : (s.setChan c x).setChan c y = s.setChan c y := by
  simp [State.setChan]

theorem modChan_modChan (s : State) (c : Chan) (f g : Channel → Channel) :
    (s.modChan c f).modChan c g = s.setChan c (g (f (s.chan c))) := by
  rw [State.modChan, State.chan_modChan_self, State.modChan, setChan_setChan]

/-! ## Out of COMPLETING (R119, R122) -/

/-- R119, R122: the channel that stands in `u` as `x` goes on to the descriptor at `addr`, or to IDLE. -/
theorem chainOrIdle_eq {u : State} {x : Channel} (h : u.chan c = x) (chains : Bool) (addr : Nat) :
    u.chainOrIdle c chains addr =
      if chains then (u.setChan c (x.begin addr)).queueOutbound (fetchAccess c addr)
      else u.setChan c { x with state := .idle } := by
  subst h
  rfl

/-- The mark advance on the way out of COMPLETING (R150 to R152). -/
def markedOut (s : State) (c : Chan) : State :=
  let out := s.modChan c Channel.outOfCompleting
  if descAdvanceMark (s.chan c).desc then out.advanceMark else out

theorem markedOut_chan (s : State) (c : Chan) : (markedOut s c).chan c = (s.chan c).outOfCompleting := by
  unfold markedOut
  split <;> simp

/-- `u` after the channel that stands in `s`, its COMPLETING fields cleared, goes on: to the next descriptor or to IDLE. -/
def goOn (s : State) (c : Chan) (u : State) : State :=
  let ch := s.chan c
  if descChain ch.desc && !ch.chainCancelled then
    (u.setChan c (ch.outOfCompleting.begin (descNext ch.desc))).queueOutbound (fetchAccess c (descNext ch.desc))
  else u.setChan c { ch.outOfCompleting with state := .idle }

theorem leaveCompleting_done (h : (s.chan c).pending = some .done) : s.leaveCompleting c = goOn s c (markedOut s c) := by
  simp only [State.leaveCompleting, h]
  exact chainOrIdle_eq (markedOut_chan s c) _ _

theorem leaveCompleting_partly (h : (s.chan c).pending = some .partly) :
    s.leaveCompleting c = goOn s c (s.modChan c Channel.outOfCompleting) := by
  simp only [State.leaveCompleting, h]
  exact chainOrIdle_eq (State.chan_modChan_self s c _) _ _

theorem leaveCompleting_faulted (h : (s.chan c).pending = some .faulted) :
    s.leaveCompleting c = s.setChan c { (s.chan c).outOfCompleting with state := .faulted } := by
  simp only [State.leaveCompleting, h]
  exact modChan_modChan s c _ _

theorem leaveCompleting_aborted (h : (s.chan c).pending = some .aborted) :
    s.leaveCompleting c = s.setChan c { (s.chan c).outOfCompleting with state := .idle } := by
  simp only [State.leaveCompleting, h]
  exact modChan_modChan s c _ _

/-! ## Into COMPLETING (R118, R166) -/

/-- R118: a record is due with FAULTED, with ABORTED, and with NOTIFY. -/
theorem recordIsDue_iff (ch : Channel) : ch.recordIsDue status = true ↔
    status = .faulted ∨ status = .aborted ∨ descNotify ch.desc = true := by
  cases status <;> simp [Channel.recordIsDue]

/-- R118: the record's fields; the tag word of an absent copy is 0. -/
theorem fixRecord_eq (ch : Channel) (c : Chan) (status : PendingStatus) : ch.fixRecord c status =
    { chan := c, status, code := ch.fault.map (·.code), done := ch.done, failed := ch.failed, addr := ch.addr.getD 0
      tagWord := descTagWord ch.desc } := by
  rw [Channel.fixRecord, Channel.desc]
  cases ch.copy <;> rfl

theorem complete_due (due : (s.chan c).recordIsDue status = true) : s.complete c status =
    (let u := s.setChan c { s.chan c with
        state := .completing, pending := some status, recordDue := true, record := some ((s.chan c).fixRecord c status) }
     State.testRecordWrite { u with ring := { u.ring with waitList := s.ring.waitList ++ [c] } }) := by
  simp only [State.complete, due, if_true]
  rfl

theorem complete_not_due (due : (s.chan c).recordIsDue status = false) : s.complete c status =
    (s.setChan c { s.chan c with
      state := .completing, pending := some status, recordDue := false, record := none }).leaveCompleting c := by
  simp [State.complete, due]

/-! ## The bytes of a record (section 10.4) -/

theorem natOfBytes_bytesOfNat {len n : Nat} (h : n < 256 ^ len) : natOfBytes (bytesOfNat len n) = n := by
  induction len generalizing n with
  | zero => exact (Nat.lt_one_iff.1 h).symm
  | succ len ih =>
    rw [bytesOfNat, natOfBytes, ih (by rw [Nat.pow_succ] at h; omega), BitVec.toNat_ofNat]
    omega

/-- Section 10.4: the counters and the address read back from the record's bytes. -/
theorem record_fields (r : Record) (done : r.done < 256 ^ 3) (failed : r.failed < 256 ^ 3) (addr : r.addr < 256 ^ 3) :
    natOfBytes ((r.bytes.drop 3).take 3) = r.done ∧ natOfBytes ((r.bytes.drop 6).take 3) = r.failed ∧
      natOfBytes ((r.bytes.drop 9).take 3) = r.addr :=
  ⟨natOfBytes_bytesOfNat done, natOfBytes_bytesOfNat failed, natOfBytes_bytesOfNat addr⟩

/-- Settles O47: the four ways out of COMPLETING, the two ways in, and the bytes of the record. -/
theorem completingRecordsThenLeaves : Obligations.CompletingRecordsThenLeaves := by
  unfold Obligations.CompletingRecordsThenLeaves
  intro s c ch d cleared chains next marked goOnFrom
  have goesOn (u : State) : goOn s c u = goOnFrom u := by
    have chain : (descChain ch.desc && !ch.chainCancelled) = true ↔ chains := by
      rw [Bool.and_eq_true, Bool.not_eq_true']
      exact Iff.rfl
    have nextAddr : descNext ch.desc = next := descField_three d 24
    rw [goOn, nextAddr]
    exact if_congr chain rfl rfl
  refine ⟨fun pending => ?_, fun pending => ?_, leaveCompleting_faulted, leaveCompleting_aborted, fun status => ?_⟩
  · exact (leaveCompleting_done pending).trans (goesOn _)
  · exact (leaveCompleting_partly pending).trans (goesOn _)
  · intro due r
    have fixed : ch.fixRecord c status = r := fixRecord_eq ch c status
    have isDue : ch.recordIsDue status = true ↔ due := recordIsDue_iff ch
    refine ⟨fun h => ?_, fun h => ?_, fun done failed addr => ?_⟩
    · rw [complete_due (isDue.2 h), fixed]
    · exact complete_not_due (Bool.eq_false_iff.2 (mt isDue.1 h))
    · obtain ⟨readsDone, readsFailed, readsAddr⟩ := record_fields r (by omega) (by omega) (by omega)
      exact ⟨rfl, rfl, readsDone, readsFailed, readsAddr, rfl⟩

end Sys2Proof.Descriptors
end

section
/-! SUPPORT. The ready list (R111, R113) and the piece that a FREE entry takes from its head (R96, R112, R128, R129). -/
namespace Sys2Proof.Descriptors

open Sys2Proof Sys2Proof.Machine Sys2Proof.Safety

-- Each thread of the elaborator reserves 1 GB under the memory limit of the check.
set_option Elab.async false

variable {s : State} {t : Tag} {c : Chan}

/-! ## A piece is issued (R112, R129) -/

theorem freeEntry_eq (free : s.entry t = none) (least : ∀ u < t, s.entry u ≠ none) : s.freeEntry = some t :=
  Credits.find?_eq_some_of_least PeerTable.allTags_sorted (PeerBus.mem_allTags t) (by rw [free]; rfl) fun u hu => by
    rw [Option.isNone_eq_false_iff, Option.isSome_iff_ne_none]
    exact least u hu

/-- R96, R112: the next piece of `c` stands in entry `t`, and the channel has counted it. -/
def handedOver (s : State) (t : Tag) (c : Chan) : State :=
  (s.setEntry t (some ((s.chan c).nextEntry c))).setChan c (s.chan c).issueOne

/-- A piece of a PUT is loaded. -/
theorem issue_load (put : descKind (s.chan c).desc = 0) : s.issue t c =
    ((handedOver s t c).queueOutbound (loadAccess t ((s.chan c).nextEntry c))).retestReady := by
  have kind : ((s.chan c).nextEntry c).kind = .write := if_pos put
  simp only [State.issue, kind]
  rfl

/-- A piece of a GET joins its peer's credit wait list; it stands in WAITING-CREDIT already. -/
theorem issue_wait (get : descKind (s.chan c).desc ≠ 0) : s.issue t c =
    ((handedOver s t c).modPeer ((s.chan c).nextEntry c).peer
      fun q => { q with waitList := q.waitList ++ [t] }).retestReady := by
  have kind : ((s.chan c).nextEntry c).kind = .read := if_neg get
  have waiting : ((s.chan c).nextEntry c).state = .waitingCredit := if_neg get
  have entry : (handedOver s t c).entry t = some ((s.chan c).nextEntry c) := State.entry_setEntry_self s t _
  have joined (p : Station) : (handedOver s t c).joinWaitList t p =
      (handedOver s t c).modPeer p fun q => { q with waitList := q.waitList ++ [t] } := by
    rw [Credits.joinWaitList_eq entry, ← waiting]
    exact congrArg (State.modPeer · p _) (Credits.setEntry_same entry)
  simp only [State.issue, kind]
  exact congrArg State.retestReady (joined _)

/-- R129: the head of the ready list issues its piece into the FREE entry, as `u`. -/
theorem exec_entryAllocation {rest : List Chan} {u : State} (ready : s.readyList = c :: rest)
    (free : s.freeEntry = some t) (copy : (s.chan c).copy.isSome = true)
    (issued : ({ s with readyList := rest } : State).issue t c = u) : exec .entryAllocation s = .next u.settle := by
  rw [exec, execEntryAllocation, State.ownRow, State.entryAllocation, ready, free]
  simp only [copy, if_true, Option.getD_some, issued]

/-! ## The ready list (R111, R113) -/

theorem mem_allChans (c : Chan) : c ∈ allChans := by revert c; decide

/-- R111: a channel qualifies by its state, its pieces and its limits. -/
theorem qualifies_iff : s.qualifies c = true ↔
    (s.chan c).state = .running ∧ (s.chan c).flag = .none ∧ (s.chan c).next < descPieces (s.chan c).desc ∧
      (s.chan c).owned < (s.chan c).inFlightLimit ∧ s.entriesTo (s.chan c).peer < Config.entriesPerPeer := by
  simp only [State.qualifies, Bool.and_eq_true, decide_eq_true_eq, and_assoc]

/-- The channels that the test appends, in increasing number (R111). -/
def newlyReady (s : State) : List Chan := allChans.filter fun c => s.qualifies c && !s.readyList.contains c

theorem mem_newlyReady : c ∈ newlyReady s ↔ s.qualifies c = true ∧ c ∉ s.readyList := by
  simp [newlyReady, mem_allChans]

theorem newlyReady_sorted (s : State) : (newlyReady s).Pairwise (· < ·) :=
  List.Pairwise.filter _ (show allChans.Pairwise (· < ·) by decide)

/-- Settles O44: the piece handed over at the head of the ready list, who qualifies, and the list after its test. -/
theorem entryAllocationIssuesAPiece : Obligations.EntryAllocationIssuesAPiece := by
  unfold Obligations.EntryAllocationIssuesAPiece
  refine ⟨fun s c rest t d ready free least copy => ?_, fun s c => qualifies_iff, fun s => ?_⟩
  · obtain rfl : (s.chan c).desc = d := by rw [Channel.desc, copy]; rfl
    have free := freeEntry_eq free least
    have copied : (s.chan c).copy.isSome = true := by rw [copy]; rfl
    exact ⟨fun put => exec_entryAllocation ready free copied (issue_load (s := { s with readyList := rest }) put),
      fun get => exec_entryAllocation ready free copied (issue_wait (s := { s with readyList := rest }) get)⟩
  · exact ⟨_, newlyReady s, rfl, rfl, newlyReady_sorted s, fun c => mem_newlyReady⟩

end Sys2Proof.Descriptors
end

section
/-! SUPPORT. The table books (R104, R111, R113, R128, R154, R166): what they read of a state, and the changes of entries and
channels that keep them. -/
namespace Sys2Proof.Channels

open Sys2Proof Sys2Proof.Machine Sys2Proof.Safety

-- Each thread of the elaborator reserves 1 GB under the memory limit of the check.
set_option Elab.async false

/-! ## What the table books read -/

/-- From one state to another the table books find the same: whose each entry is, the channels and the lists of them. -/
structure SameTable (s t : State) : Prop where
  holder : ∀ u, (t.entry u).map (fun e => (e.peer, e.chan)) = (s.entry u).map fun e => (e.peer, e.chan)
  channels : t.channels = s.channels
  readyList : t.readyList = s.readyList
  waits : t.marks.waits = s.marks.waits
  waitList : t.ring.waitList = s.ring.waitList
  inProgress : t.ring.inProgress = s.ring.inProgress

/-- If the table books are kept in `s`, they are in `t`. -/
def TableKept (s t : State) : Prop := TableBooks s → TableBooks t

/-- A channel's counters, whatever its state (R104, R112, R114). -/
def Counted (x : Channel) : Prop := x.next = x.issued ∧ x.done + x.failed + x.owned ≤ x.issued

/-- The table books are kept, and channel `c` owns no entry and stands in no list of channels. -/
structure Unlisted (s : State) (c : Chan) : Prop extends TableBooks s where
  ownsNone : (s.chan c).owned = 0
  notReady : c ∉ s.readyList
  notMember : s.waitOf c = none
  noRecord : c ∉ s.ring.waitList
  notWriting : s.ring.inProgress ≠ some c

variable {s t u : State} {c : Chan} {v : Tag} {e : Entry} {x : Channel}

theorem TableKept.refl (s : State) : TableKept s s := id

theorem TableKept.trans (h : TableKept s t) (h' : TableKept t u) : TableKept s u := h' ∘ h

theorem tableKept_foldl {α : Type} {f : State → α → State} (h : ∀ s a, TableKept s (f s a)) (l : List α) (s : State) :
    TableKept s (l.foldl f s) := by
  induction l generalizing s with
  | nil => exact .refl s
  | cons a l ih => exact (h s a).trans (ih (f s a))

/-- A change of other blocks than those the table books read. -/
theorem SameTable.of_blocks (entries : t.entries = s.entries := by rfl) (channels : t.channels = s.channels := by rfl)
    (readyList : t.readyList = s.readyList := by rfl) (waits : t.marks.waits = s.marks.waits := by rfl)
    (waitList : t.ring.waitList = s.ring.waitList := by rfl)
    (inProgress : t.ring.inProgress = s.ring.inProgress := by rfl) : SameTable s t where
  holder u := by rw [State.entry, State.entry, entries]
  channels := channels
  readyList := readyList
  waits := waits
  waitList := waitList
  inProgress := inProgress

theorem SameTable.refl (s : State) : SameTable s s := .of_blocks

theorem SameTable.trans (h : SameTable s t) (h' : SameTable t u) : SameTable s u where
  holder v := (h'.holder v).trans (h.holder v)
  channels := h'.channels.trans h.channels
  readyList := h'.readyList.trans h.readyList
  waits := h'.waits.trans h.waits
  waitList := h'.waitList.trans h.waitList
  inProgress := h'.inProgress.trans h.inProgress

theorem SameTable.chan (h : SameTable s t) (c : Chan) : t.chan c = s.chan c := by rw [State.chan, State.chan, h.channels]

theorem SameTable.waitOf (h : SameTable s t) (c : Chan) : t.waitOf c = s.waitOf c := by
  rw [State.waitOf, State.waitOf, h.waits]

theorem SameTable.peer (h : SameTable s t) (v : Tag) : (t.entry v).map (·.peer) = (s.entry v).map (·.peer) := by
  have same := congrArg (Option.map Prod.fst) (h.holder v)
  rw [Option.map_map, Option.map_map] at same
  exact same

theorem SameTable.owner (h : SameTable s t) (v : Tag) : (t.entry v).map (·.chan) = (s.entry v).map (·.chan) := by
  have same := congrArg (Option.map Prod.snd) (h.holder v)
  rw [Option.map_map, Option.map_map] at same
  exact same

theorem SameTable.entriesTo (h : SameTable s t) (p : Station) : t.entriesTo p = s.entriesTo p := by
  simp only [State.entriesTo, h.peer]

theorem SameTable.entriesOf (h : SameTable s t) (c : Chan) : entriesOf t c = entriesOf s c := by
  simp only [Safety.entriesOf, h.owner]

/-- Whether a channel qualifies is read of it and of the entries to its peer (R111). -/
theorem qualifies_congr (chan : t.chan c = s.chan c) (entries : ∀ p, t.entriesTo p = s.entriesTo p) :
    t.qualifies c = s.qualifies c := by
  simp only [State.qualifies, chan, entries]

theorem SameTable.kept (h : SameTable s t) : TableKept s t := fun books =>
  { perPeer := fun p => h.entriesTo p ▸ books.perPeer p
    perChannel := fun c => h.chan c ▸ books.perChannel c
    owned := fun c => by rw [h.chan, h.entriesOf]; exact books.owned c
    atRest := fun c => h.chan c ▸ books.atRest c
    counters := fun c => h.chan c ▸ books.counters c
    ready := fun c hc => (qualifies_congr (h.chan c) h.entriesTo).trans (books.ready c (h.readyList ▸ hc))
    readyOnce := h.readyList ▸ books.readyOnce
    waits := fun c => by rw [h.chan, h.waitOf]; exact books.waits c
    records := fun c => by rw [h.chan, h.waitList, h.inProgress]; exact books.records c
    recordsOnce := by rw [h.waitList, h.inProgress]; exact books.recordsOnce }

theorem Unlisted.same (h : Unlisted s c) (k : SameTable s t) : Unlisted t c where
  toTableBooks := k.kept h.toTableBooks
  ownsNone := by rw [k.chan]; exact h.ownsNone
  notReady := k.readyList ▸ h.notReady
  notMember := (k.waitOf c).trans h.notMember
  noRecord := k.waitList ▸ h.noRecord
  notWriting := k.inProgress ▸ h.notWriting

/-! ## Whose the entries are -/

/-- How many entries carry `a`, when one entry is written. -/
theorem countP_setEntry {α : Type} [DecidableEq α] (k : Entry → α) (a : α) (s : State) (v : Tag) (y : Option Entry) :
    allTags.countP (fun w => ((s.setEntry v y).entry w).map k = some a) + (if (s.entry v).map k = some a then 1 else 0)
      = allTags.countP (fun w => (s.entry w).map k = some a) + if y.map k = some a then 1 else 0 := by
  have rest : (allTags.erase v).countP (fun w => ((s.setEntry v y).entry w).map k = some a)
      = (allTags.erase v).countP fun w => (s.entry w).map k = some a := by
    refine List.countP_congr fun w hw => ?_
    have other : v ≠ w := fun same => (List.Nodup.mem_erase_iff (by decide)).1 hw |>.1 same.symm
    rw [State.entry_setEntry_of_ne s other]
  have split := List.perm_cons_erase (PeerBus.mem_allTags v)
  rw [split.countP_eq, split.countP_eq, List.countP_cons, List.countP_cons, rest, State.entry_setEntry_self]
  simp only [decide_eq_true_eq]
  omega

theorem entriesTo_setEntry (s : State) (v : Tag) (y : Option Entry) (p : Station) :
    (s.setEntry v y).entriesTo p + (if (s.entry v).map (·.peer) = some p then 1 else 0)
      = s.entriesTo p + if y.map (·.peer) = some p then 1 else 0 := countP_setEntry (·.peer) p s v y

theorem entriesOf_setEntry (s : State) (v : Tag) (y : Option Entry) (c : Chan) :
    entriesOf (s.setEntry v y) c + (if (s.entry v).map (·.chan) = some c then 1 else 0)
      = entriesOf s c + if y.map (·.chan) = some c then 1 else 0 := countP_setEntry (·.chan) c s v y

/-- An entry written without a change of whose it is. -/
theorem sameTable_setEntry (h : s.entry v = some e) {f : Entry} (peer : f.peer = e.peer := by rfl)
    (chan : f.chan = e.chan := by rfl) : SameTable s (s.setEntry v (some f)) where
  holder w := by
    rw [State.entry_setEntry]
    split
    · subst_vars; rw [h, Option.map_some, Option.map_some, peer, chan]
    · rfl
  channels := rfl
  readyList := rfl
  waits := rfl
  waitList := rfl
  inProgress := rfl

theorem sameTable_modEntry (s : State) (v : Tag) (f : Entry → Entry) (peer : ∀ e, (f e).peer = e.peer := by intro; rfl)
    (chan : ∀ e, (f e).chan = e.chan := by intro; rfl) : SameTable s (s.modEntry v f) where
  holder w := by
    rw [State.entry_modEntry]
    split
    · subst_vars; cases s.entry w <;> simp [peer, chan]
    · rfl
  channels := rfl
  readyList := rfl
  waits := rfl
  waitList := rfl
  inProgress := rfl

theorem sameTable_joinWaitList (s : State) (v : Tag) (p : Station) : SameTable s (s.joinWaitList v p) :=
  (sameTable_modEntry s v fun e => { e with state := .waitingCredit, replyTimer := .stopped }).trans .of_blocks

/-! ## One channel -/

/-- A channel that owns entries is RUNNING or DRAINING, is no member of the wait set and has no record. -/
theorem busy_of_owned (books : TableBooks s) (h : (s.chan c).owned ≠ 0) :
    ((s.chan c).state = .running ∨ (s.chan c).state = .draining) ∧ s.waitOf c = none ∧
      ¬ (c ∈ s.ring.waitList ∨ s.ring.inProgress = some c) := by
  have busy : (s.chan c).state = .running ∨ (s.chan c).state = .draining := by
    by_contra other
    exact h (books.atRest c (fun r => other (.inl r)) fun d => other (.inr d))
  refine ⟨busy, ?_, fun record => ?_⟩
  · by_contra member
    rw [books.waits c member] at busy
    simp at busy
  · rw [books.records c record] at busy
    simp at busy

theorem not_qualifies_of_state (h : (s.chan c).state ≠ .running) : s.qualifies c = false := by
  simp [State.qualifies, h]

theorem not_ready (books : TableBooks s) (h : s.qualifies c = false) : c ∉ s.readyList := fun hc => by
  rw [books.ready c hc] at h
  cases h

/-- What the table books ask of a channel by itself, given the lists that it stands in. -/
structure Fits (s : State) (c : Chan) (x : Channel) : Prop where
  limit : x.owned ≤ x.inFlightLimit
  atRest : x.state ≠ .running → x.state ≠ .draining → x.owned = 0
  counted : Counted x
  waits : s.waitOf c ≠ none → x.state = .waiting
  records : c ∈ s.ring.waitList ∨ s.ring.inProgress = some c → x.state = .completing

/-- A change of one channel, of its entries and of no list. -/
theorem tableBooks_change (books : TableBooks s) (own : Fits s c (t.chan c)) (owned : (t.chan c).owned = entriesOf t c)
    (perPeer : ∀ p, t.entriesTo p ≤ 4) (ready : ∀ d ∈ s.readyList, t.qualifies d = true)
    (other : ∀ d ≠ c, t.chan d = s.chan d ∧ entriesOf t d = entriesOf s d) (readyList : t.readyList = s.readyList := by rfl)
    (waits : t.marks.waits = s.marks.waits := by rfl) (ring : t.ring = s.ring := by rfl) : TableBooks t := by
  have fits (d : Chan) : Fits s d (t.chan d) := by
    by_cases same : d = c
    · exact same ▸ own
    · rw [(other d same).1]
      exact ⟨books.perChannel d, books.atRest d, books.counters d, books.waits d, books.records d⟩
  have counts (d : Chan) : (t.chan d).owned = entriesOf t d := by
    by_cases same : d = c
    · exact same ▸ owned
    · rw [(other d same).1, (other d same).2]
      exact books.owned d
  exact
    { perPeer := perPeer
      perChannel := fun d => (fits d).limit
      owned := counts
      atRest := fun d => (fits d).atRest
      counters := fun d => (fits d).counted
      ready := readyList ▸ ready
      readyOnce := readyList ▸ books.readyOnce
      waits := fun d => by rw [State.waitOf, waits]; exact (fits d).waits
      records := ring ▸ fun d => (fits d).records
      recordsOnce := ring ▸ books.recordsOnce }

/-- The change of one channel that owns as many entries as before. -/
theorem tableBooks_setChan (books : TableBooks s) (own : Fits s c x) (owned : x.owned = (s.chan c).owned)
    (ready : c ∉ s.readyList) : TableBooks (s.setChan c x) := by
  have other (d : Chan) (hd : d ≠ c) : (s.setChan c x).chan d = s.chan d := State.chan_setChan_of_ne s (Ne.symm hd) x
  refine tableBooks_change (c := c) books ?_ ?_ books.perPeer (fun d hd => ?_) fun d hd => ⟨other d hd, rfl⟩
  · rwa [State.chan_setChan_self]
  · rw [State.chan_setChan_self, owned]
    exact books.owned c
  · exact (qualifies_congr (other d fun same => ready (same ▸ hd)) fun _ => rfl).trans (books.ready d hd)

/-- A channel that owns no entry, does not qualify, is no member and is not COMPLETING stands in no list. -/
theorem unlisted_of (books : TableBooks s) (ownsNone : (s.chan c).owned = 0) (notReady : s.qualifies c = false)
    (notMember : s.waitOf c = none) (notCompleting : (s.chan c).state ≠ .completing) : Unlisted s c where
  toTableBooks := books
  ownsNone := ownsNone
  notReady := not_ready books notReady
  notMember := notMember
  noRecord h := notCompleting (books.records c (.inl h))
  notWriting h := notCompleting (books.records c (.inr h))

/-- A channel that is IDLE, FETCHING or FAULTED stands in no list. -/
theorem unlisted_of_state (books : TableBooks s) (running : (s.chan c).state ≠ .running)
    (draining : (s.chan c).state ≠ .draining) (waiting : (s.chan c).state ≠ .waiting)
    (completing : (s.chan c).state ≠ .completing) : Unlisted s c :=
  unlisted_of books (books.atRest c running draining) (not_qualifies_of_state running)
    (by_contra fun member => waiting (books.waits c member)) completing

/-- A channel in no list may change its state. -/
theorem Unlisted.setChan (h : Unlisted s c) (owned : x.owned = 0) (counted : Counted x) : Unlisted (s.setChan c x) c where
  toTableBooks :=
    have own : Fits s c x :=
      { limit := owned ▸ Nat.zero_le _
        atRest := fun _ _ => owned
        counted
        waits := fun member => absurd h.notMember member
        records := fun record => (record.elim h.noRecord h.notWriting).elim }
    tableBooks_setChan h.toTableBooks own (owned.trans h.ownsNone.symm) h.notReady
  ownsNone := (congrArg Channel.owned (State.chan_setChan_self s c x)).trans owned
  notReady := h.notReady
  notMember := h.notMember
  noRecord := h.noRecord
  notWriting := h.notWriting

theorem Unlisted.counted (h : Unlisted s c) : Counted (s.chan c) := h.counters c

/-- A member leaves the wait set (R154). -/
theorem tableBooks_setWait_none (books : TableBooks s) (c : Chan) : TableBooks (s.setWait c none) :=
  { books with
    waits := fun d => by
      rw [State.waitOf_setWait]
      split
      · exact fun h => absurd rfl h
      · exact books.waits d }

/-- R117: a WAITING channel becomes a member of the wait set. -/
theorem tableBooks_setWait_some (books : TableBooks s) (h : (s.chan c).state = .waiting) (m : WaitMember) :
    TableBooks (s.setWait c (some m)) :=
  { books with
    waits := fun d => by
      rw [State.waitOf_setWait]
      split
      · subst_vars; exact fun _ => h
      · exact books.waits d }

/-- A WAITING channel that has left the wait set stands in no list. -/
theorem unlisted_setWait_none (books : TableBooks s) (h : (s.chan c).state = .waiting) : Unlisted (s.setWait c none) c :=
  unlisted_of (tableBooks_setWait_none books c) (books.atRest c (by rw [h]; decide) (by rw [h]; decide))
    (not_qualifies_of_state (by rw [State.setWait_chan, h]; decide)) (State.waitOf_setWait_self s c none)
    (by rw [State.setWait_chan, h]; decide)

/-! ## The ready list (R111, R113) -/

theorem tableBooks_unready (books : TableBooks s) : TableBooks { s with readyList := [] } :=
  { books with ready := nofun, readyOnce := List.nodup_nil }

/-- The test leaves in the ready list, each once, the channels that qualify. -/
theorem tableBooks_retestReady (books : TableBooks { s with readyList := [] }) (once : s.readyList.Nodup) :
    TableBooks s.retestReady :=
  { books with
    ready := fun c hc => by
      have qualifies : s.qualifies c = true := by
        rcases List.mem_append.1 hc with kept | new
        · exact (List.mem_filter.1 kept).2
        · exact (Bool.and_eq_true_iff.1 (List.mem_filter.1 new).2).1
      exact qualifies
    readyOnce := by
      refine (once.filter _).append (List.Nodup.filter _ (by decide)) ?_
      intro c kept new
      have out := (Bool.and_eq_true_iff.1 (List.mem_filter.1 new).2).2
      simp [(List.mem_filter.1 kept).1] at out }

theorem tableKept_retestReady (s : State) : TableKept s s.retestReady := fun books =>
  tableBooks_retestReady (tableBooks_unready books) books.readyOnce

/-! ## Entries given out and retired (R112, R128, R129, R147) -/

/-- `x` is the channel `ch` after one of its entries has retired, as far as the table books read it. -/
structure OneLess (ch x : Channel) : Prop where
  owned : x.owned = ch.owned - 1
  copy : x.copy = ch.copy
  next : x.next = ch.next
  issued : x.issued = ch.issued
  counted : x.done + x.failed ≤ ch.done + ch.failed + 1
  state : x.state = ch.state ∨ x.state = .draining

/-- An entry becomes FREE, and its channel owns one less. -/
theorem tableBooks_freed (books : TableBooks s) (empty : s.readyList = []) (entry : s.entry v = some e)
    (h : OneLess (s.chan e.chan) x) : TableBooks ((s.setEntry v none).setChan e.chan x) := by
  obtain ⟨owned, copy, next, issued, counted, state⟩ := h
  have left (d : Chan) : entriesOf (s.setEntry v none) d + (if e.chan = d then 1 else 0) = entriesOf s d := by
    simpa [entry] using entriesOf_setEntry s v none d
  have fewer (p : Station) : (s.setEntry v none).entriesTo p ≤ s.entriesTo p := by
    have := entriesTo_setEntry s v none p
    simp only [Option.map_none, reduceCtorEq, if_false] at this
    omega
  have one := left e.chan
  rw [if_pos rfl, ← books.owned] at one
  obtain ⟨busy, notMember, noRecord⟩ := busy_of_owned (c := e.chan) books (by omega)
  obtain ⟨nextIssued, sum⟩ := books.counters e.chan
  have limit : x.inFlightLimit = (s.chan e.chan).inFlightLimit := by
    rw [Channel.inFlightLimit, Channel.inFlightLimit, Channel.desc, Channel.desc, copy]
  have other (d : Chan) (hd : d ≠ e.chan) : ((s.setEntry v none).setChan e.chan x).chan d = s.chan d :=
    State.chan_setChan_of_ne _ (Ne.symm hd) x
  have own : Fits s e.chan x :=
    { limit := by rw [limit, owned]; exact (Nat.sub_le _ 1).trans (books.perChannel _)
      atRest := fun running draining => by
        rcases state with same | drains
        · rw [same] at running draining
          exact (busy.elim running draining).elim
        · exact absurd drains draining
      counted := ⟨by omega, by omega⟩
      waits := fun member => absurd notMember member
      records := fun record => absurd record noRecord }
  refine tableBooks_change (c := e.chan) books ?_ ?_ (fun p => (fewer p).trans (books.perPeer p)) (by simp [empty])
    fun d hd => ⟨other d hd, ?_⟩
  · rwa [State.chan_setChan_self]
  · rw [State.chan_setChan_self]
    change x.owned = entriesOf (s.setEntry v none) e.chan
    omega
  · have same := left d
    rwa [if_neg (Ne.symm hd)] at same

/-- The fault record after a piece fault (R105). -/
def pieceRecord (ch : Channel) (code : FaultCode) (piece : Nat) (peer : Station) : FaultRecord :=
  match ch.fault with
  | none => { code, piece := some piece, peer := some peer, addr := ch.addr.getD 0, further := 0 }
  | some f => f.more

theorem pieceFault_eq (ch : Channel) (code : FaultCode) (piece : Nat) (peer : Station) :
    ch.pieceFault code piece peer = { ch with fault := some (pieceRecord ch code piece peer) } := by
  unfold Channel.pieceFault pieceRecord
  cases ch.fault <;> rfl

theorem applyOutcome_done (ch : Channel) (piece : Nat) (peer : Station) :
    ch.applyOutcome .done piece peer = { ch with owned := ch.owned - 1, done := ch.done + 1 } := rfl

theorem applyOutcome_aborted (ch : Channel) (piece : Nat) (peer : Station) :
    ch.applyOutcome .aborted piece peer = { ch with owned := ch.owned - 1 } := rfl

/-- R105, R114, R115: a failed piece is counted and recorded, and may stop its channel. -/
theorem applyOutcome_failed (ch : Channel) (code : FaultCode) (piece : Nat) (peer : Station) :
    ch.applyOutcome (.failed code) piece peer =
      (let stops := ch.flag = .none ∧ ch.stopsOn code = true
       { ch with
        owned := ch.owned - 1, failed := ch.failed + 1, fault := some (pieceRecord ch code piece peer)
        flag := if stops then .stopping else ch.flag
        state := if stops ∧ ch.state = .running then .draining else ch.state }) := by
  simp only [Channel.applyOutcome, pieceFault_eq, Bool.and_eq_true, decide_eq_true_eq]
  have same : Channel.stopsOn { ch with
      owned := ch.owned - 1, failed := ch.failed + 1, fault := some (pieceRecord ch code piece peer) } code =
    ch.stopsOn code := rfl
  have record : pieceRecord { ch with owned := ch.owned - 1, failed := ch.failed + 1 } code piece peer =
    pieceRecord ch code piece peer := rfl
  rw [record, same]
  split
  · simp only [Channel.stop, *, true_and, and_self]
  · simp only [*, false_and, if_false]

theorem oneLess_applyOutcome (ch : Channel) (o : PieceOutcome) (piece : Nat) (peer : Station) :
    OneLess ch (ch.applyOutcome o piece peer) := by
  cases o with
  | done => exact ⟨rfl, rfl, rfl, rfl, (Nat.succ_add _ _).le, .inl rfl⟩
  | aborted => exact ⟨rfl, rfl, rfl, rfl, Nat.le_succ _, .inl rfl⟩
  | failed code =>
    rw [applyOutcome_failed]
    refine ⟨rfl, rfl, rfl, rfl, le_rfl, ?_⟩
    dsimp only
    split
    · exact .inr rfl
    · exact .inl rfl

/-- R147: a retirement. -/
theorem retire_eq (entry : s.entry v = some e) (o : PieceOutcome) : s.retire v o =
    ((s.setEntry v none).setChan e.chan ((s.chan e.chan).applyOutcome o e.piece e.peer)).retestReady := by
  simp only [State.retire, entry]
  rfl

theorem retire_free (free : s.entry v = none) (o : PieceOutcome) : s.retire v o = s := by
  simp only [State.retire, free]

theorem tableKept_retire (s : State) (v : Tag) (o : PieceOutcome) : TableKept s (s.retire v o) := by
  intro books
  cases entry : s.entry v with
  | none => rwa [retire_free entry]
  | some e =>
    rw [retire_eq entry]
    exact tableBooks_retestReady (tableBooks_freed (s := { s with readyList := [] }) (tableBooks_unready books) rfl entry
      (oneLess_applyOutcome (s.chan e.chan) o e.piece e.peer)) books.readyOnce

/-- R112, R129: a channel that qualifies has its next piece in an entry that was FREE. -/
theorem tableBooks_handedOver (books : TableBooks s) (empty : s.readyList = []) (free : s.entry v = none)
    (qualifies : s.qualifies c = true) : TableBooks (Descriptors.handedOver s v c) := by
  obtain ⟨running, -, -, room, roomAtPeer⟩ := Descriptors.qualifies_iff.1 qualifies
  let f := (s.chan c).nextEntry c
  have more (d : Chan) : entriesOf (s.setEntry v (some f)) d = entriesOf s d + if c = d then 1 else 0 := by
    simpa [free, f, Channel.nextEntry] using entriesOf_setEntry s v (some f) d
  have moreTo (p : Station) : (s.setEntry v (some f)).entriesTo p = s.entriesTo p + if (s.chan c).peer = p then 1 else 0 := by
    simpa [free, f, Channel.nextEntry] using entriesTo_setEntry s v (some f) p
  obtain ⟨nextIssued, sum⟩ := books.counters c
  have own : Fits s c (s.chan c).issueOne :=
    { limit := room
      atRest := fun notRunning notDraining => by
        unfold Channel.issueOne at notRunning notDraining
        dsimp only at notRunning notDraining
        split at notDraining
        · exact absurd rfl notDraining
        · rw [if_neg ‹_›] at notRunning
          exact absurd running notRunning
      counted := ⟨congrArg (· + 1) nextIssued, Nat.succ_le_succ sum⟩
      waits := fun member => by rw [books.waits c member] at running; cases running
      records := fun record => by rw [books.records c record] at running; cases running }
  unfold Descriptors.handedOver
  refine tableBooks_change (c := c) books ?_ ?_ (fun p => (moreTo p).le.trans ?_) (by simp [empty])
    fun d hd => ⟨State.chan_setChan_of_ne _ (Ne.symm hd) _, (more d).trans (by rw [if_neg (Ne.symm hd)]; rfl)⟩
  · rwa [State.chan_setChan_self]
  · rw [State.chan_setChan_self]
    exact (congrArg (· + 1) (books.owned c)).trans ((more c).trans (by rw [if_pos rfl])).symm
  · split
    · subst_vars; exact roomAtPeer
    · exact books.perPeer p

/-- The entry that is given out is FREE (R129). -/
theorem entry_of_freeEntry (h : s.freeEntry = some v) : s.entry v = none := by
  simpa using List.find?_some h

/-- Past the hand-over, the table books find the piece issued as it is handed over; the ready list is tested. -/
theorem issue_same (s : State) (v : Tag) (c : Chan) :
    ∃ w, s.issue v c = w.retestReady ∧ SameTable (Descriptors.handedOver s v c) w := by
  by_cases put : descKind (s.chan c).desc = 0
  · exact ⟨_, Descriptors.issue_load put, .of_blocks⟩
  · exact ⟨_, Descriptors.issue_wait put, .of_blocks⟩

theorem tableKept_entryAllocation (h : s.entryAllocation = some t) : TableKept s t := by
  intro books
  obtain ⟨c, rest, v, ready, free, -, rfl⟩ := State.entryAllocation_spec h
  obtain ⟨w, issued, same⟩ := issue_same { s with readyList := rest } v c
  rw [issued]
  have handed : TableBooks (Descriptors.handedOver { s with readyList := [] } v c) :=
    tableBooks_handedOver (tableBooks_unready books) rfl (entry_of_freeEntry free)
      (books.ready c (ready ▸ List.mem_cons_self))
  have once : (c :: rest).Nodup := ready ▸ books.readyOnce
  refine tableBooks_retestReady (SameTable.kept (s := Descriptors.handedOver { s with readyList := [] } v c) ?_ handed)
    (same.readyList ▸ once.of_cons)
  exact ⟨same.holder, same.channels, rfl, same.waits, same.waitList, same.inProgress⟩

end Sys2Proof.Channels
end

section
/-! SUPPORT. The WAIT evaluation (R117, R154 to R156): who is reported, who leaves the wait set, and what a report leaves of
the other channels. -/
namespace Sys2Proof.Channels

open Sys2Proof Sys2Proof.Machine Sys2Proof.Safety

-- Each thread of the elaborator reserves 1 GB under the memory limit of the check.
set_option Elab.async false

variable {s t u : State} {c d : Chan} {x : Channel}

/-! ## Reports (R155, R156) -/

/-- A report is made of the members whose WAIT the evaluation settles. -/
theorem mem_waitReports {r : WaitReport} :
    (c, r) ∈ s.waitReports ↔ r ≠ .still ∧ ∃ m, s.waitOf c = some m ∧ s.evaluate m = r := by
  rw [State.waitReports, List.mem_filterMap]
  constructor
  · rintro ⟨d, -, report⟩
    obtain ⟨rfl, settled⟩ := State.waitReport_spec report
    exact settled
  · rintro ⟨settled, m, member, rfl⟩
    refine ⟨c, Descriptors.mem_allChans c, ?_⟩
    unfold State.waitReport
    rw [member]
    dsimp only
    split
    · exact absurd ‹_› settled
    · rfl

/-- The reports of one evaluation are in increasing channel number. -/
theorem waitReports_sorted (s : State) : s.waitReports.Pairwise fun x y => x.1 < y.1 := by
  refine List.Pairwise.filterMap _ (fun a b less x hx y hy => ?_) (show allChans.Pairwise (· < ·) by decide)
  rw [(State.waitReport_spec (r := x.2) hx).1, (State.waitReport_spec (r := y.2) hy).1]
  exact less

/-- The reported channels leave the wait set together. -/
theorem waitOf_leaveWaitSet (s : State) (l : List (Chan × WaitReport)) (c : Chan) :
    (s.leaveWaitSet l).waitOf c = if c ∈ l.map (·.1) then none else s.waitOf c := by
  induction l generalizing s with
  | nil => rfl
  | cons r l ih =>
    rw [show s.leaveWaitSet (r :: l) = (s.setWait r.1 none).leaveWaitSet l from rfl, ih, State.waitOf_setWait]
    by_cases own : r.1 = c
    · simp [own]
    · simp only [List.map_cons, List.mem_cons, own, if_false, Ne.symm own, false_or]

/-! ## What a report leaves of the other channels -/

/-- From `s` to `t`, channels other than `c` and the wait set stay. -/
structure OnlyChannel (c : Chan) (s t : State) : Prop where
  other : ∀ d ≠ c, t.chan d = s.chan d
  waits : t.marks.waits = s.marks.waits

theorem OnlyChannel.trans (h : OnlyChannel c s t) (h' : OnlyChannel c t u) : OnlyChannel c s u where
  other d hd := (h'.other d hd).trans (h.other d hd)
  waits := h'.waits.trans h.waits

theorem OnlyChannel.of_same (h : SameTable s t) : OnlyChannel c s t := ⟨fun d _ => h.chan d, h.waits⟩

theorem OnlyChannel.waitOf (h : OnlyChannel c s t) (d : Chan) : t.waitOf d = s.waitOf d := by
  rw [State.waitOf, State.waitOf, h.waits]

theorem onlyChannel_setChan (s : State) (c : Chan) (x : Channel) : OnlyChannel c s (s.setChan c x) :=
  ⟨fun _ hd => State.chan_setChan_of_ne s (Ne.symm hd) x, rfl⟩

theorem sameTable_queuePresence (s : State) : SameTable s s.queuePresence :=
  .of_blocks (by simp) (by simp) (by simp) (by simp) (by simp) (by simp)

theorem sameTable_advanceMark (s : State) : SameTable s s.advanceMark := by
  refine .of_blocks (by simp) (by simp) (by simp) ?_ (by simp) (by simp)
  unfold State.advanceMark
  dsimp only
  split
  · simp
  · rfl

theorem onlyChannel_chainOrIdle (s : State) (c : Chan) (chains : Bool) (addr : Nat) :
    OnlyChannel c s (s.chainOrIdle c chains addr) := by
  unfold State.chainOrIdle
  split
  · exact (onlyChannel_setChan s c _).trans (.of_same .of_blocks)
  · exact onlyChannel_setChan s c _

theorem onlyChannel_leaveCompleting (s : State) (c : Chan) : OnlyChannel c s (s.leaveCompleting c) := by
  have out : OnlyChannel c s (s.modChan c Channel.outOfCompleting) := onlyChannel_setChan s c _
  simp only [State.leaveCompleting]
  split
  · split
    · exact (out.trans (.of_same (sameTable_advanceMark _))).trans (onlyChannel_chainOrIdle _ c _ _)
    · exact out.trans (onlyChannel_chainOrIdle _ c _ _)
  · exact out.trans (onlyChannel_chainOrIdle _ c _ _)
  all_goals exact out.trans (onlyChannel_setChan _ c _)

theorem onlyChannel_complete (s : State) (c : Chan) (status : PendingStatus) : OnlyChannel c s (s.complete c status) := by
  cases due : (s.chan c).recordIsDue status with
  | true =>
    rw [Descriptors.complete_due due]
    exact (onlyChannel_setChan s c _).trans ⟨fun d _ => by simp; rfl, by simp⟩
  | false =>
    rw [Descriptors.complete_not_due due]
    exact (onlyChannel_setChan s c _).trans (onlyChannel_leaveCompleting _ c)

/-! ## The channel engine keeps the table books -/

theorem Unlisted.chainOrIdle (h : Unlisted s c) (chains : Bool) (addr : Nat) : Unlisted (s.chainOrIdle c chains addr) c := by
  unfold State.chainOrIdle
  split
  · exact (h.setChan (x := (s.chan c).begin addr) rfl ⟨rfl, le_rfl⟩).same .of_blocks
  · exact h.setChan h.ownsNone h.counted

/-- R119: a channel leaves COMPLETING for FETCHING, IDLE or FAULTED. -/
theorem Unlisted.leaveCompleting (h : Unlisted s c) : Unlisted (s.leaveCompleting c) c := by
  have out : Unlisted (s.modChan c Channel.outOfCompleting) c := h.setChan h.ownsNone h.counted
  have state (st : ChanState) : Unlisted ((s.modChan c Channel.outOfCompleting).modChan c fun ch => { ch with state := st }) c :=
    out.setChan out.ownsNone out.counted
  simp only [State.leaveCompleting]
  split
  · split
    · exact (out.same (sameTable_advanceMark _)).chainOrIdle _ _
    · exact out.chainOrIdle _ _
  · exact out.chainOrIdle _ _
  all_goals exact state _

/-- R166: the head of the ring wait list becomes the record write in progress. -/
theorem tableKept_recordWriteIssue (h : s.recordWriteIssue = some t) : TableKept s t := by
  intro books
  obtain ⟨c, rest, r, list, idle, -, -, rfl⟩ := State.recordWriteIssue_spec h
  have once : (c :: rest).Nodup := list ▸ books.recordsOnce.1
  have record (d : Chan) (hd : d ∈ c :: rest) : (s.chan d).state = .completing := books.records d (.inl (list ▸ hd))
  exact
    { books with
      records := fun d hd => record d (hd.elim (List.mem_cons_of_mem c) fun own => by
        rw [Option.some.inj own]; exact List.mem_cons_self)
      recordsOnce := ⟨once.of_cons, fun d hd own => (List.nodup_cons.1 once).1 (Option.some.inj own ▸ hd)⟩ }

theorem tableKept_testRecordWrite (s : State) : TableKept s s.testRecordWrite := by
  unfold State.testRecordWrite
  cases issued : s.recordWriteIssue with
  | none => exact .refl s
  | some t => exact tableKept_recordWriteIssue issued

/-- R118, R166: a channel enters COMPLETING, and waits for its record write or goes on. -/
theorem Unlisted.complete (h : Unlisted s c) (status : PendingStatus) : TableBooks (s.complete c status) := by
  cases due : (s.chan c).recordIsDue status with
  | true =>
    rw [Descriptors.complete_due due]
    refine tableKept_testRecordWrite _ ?_
    have set := h.setChan h.ownsNone h.counted (x := { s.chan c with
      state := .completing, pending := some status, recordDue := true, record := some ((s.chan c).fixRecord c status) })
    exact
      { set.toTableBooks with
        records := fun d hd => by
          rcases hd with waits | writes
          · rcases List.mem_append.1 waits with before | new
            · exact set.records d (.inl before)
            · rw [List.mem_singleton.1 new]
              exact congrArg Channel.state (State.chan_setChan_self s c _)
          · exact set.records d (.inr writes)
        recordsOnce := by
          refine ⟨List.nodup_append.2 ⟨set.recordsOnce.1, List.nodup_singleton c, fun a ha b hb same => ?_⟩, fun d hd => ?_⟩
          · exact h.noRecord (List.mem_singleton.1 hb ▸ same ▸ ha)
          · rcases List.mem_append.1 hd with before | new
            · exact set.recordsOnce.2 d before
            · exact List.mem_singleton.1 new ▸ h.notWriting }
  | false =>
    rw [Descriptors.complete_not_due due]
    have set := h.setChan h.ownsNone h.counted (x := { s.chan c with
      state := .completing, pending := some status, recordDue := false, record := none })
    exact set.leaveCompleting.toTableBooks

theorem channelFault_frame (ch : Channel) (code : FaultCode) (p : Option Station) :
    ∃ f, ch.channelFault code p = { ch with fault := f } := by
  unfold Channel.channelFault
  split
  · exact ⟨_, rfl⟩
  · split
    · exact ⟨_, rfl⟩
    · exact ⟨_, rfl⟩

theorem Unlisted.failChannel (h : Unlisted s c) (code : FaultCode) (p : Option Station) :
    TableBooks (s.failChannel c code p) := by
  obtain ⟨f, fault⟩ := channelFault_frame (s.chan c) code p
  have failed : Unlisted (s.modChan c fun ch => { Channel.channelFault ch code p with waitTimer := .stopped }) c := by
    rw [State.modChan, fault]
    exact h.setChan h.ownsNone h.counted
  exact failed.complete .faulted

/-- A report delivered to a WAITING channel. -/
theorem tableBooks_takeReport (books : TableBooks s) (waiting : (s.chan c).state = .waiting) (r : WaitReport) :
    TableBooks (s.takeReport c r) := by
  have left := unlisted_setWait_none books waiting
  cases r with
  | satisfied => exact (left.setChan (x := { s.chan c with waitTimer := .stopped }) left.ownsNone left.counted).complete .done
  | lost p => exact left.failChannel .peerLost (some p)
  | still => exact books

theorem setWait_same (notMember : s.waitOf c = none) : s.setWait c none = s := by
  have same : s.marks.waits.set c none = s.marks.waits := by
    refine Vector.ext fun d hd => ?_
    rw [Vector.getElem_set]
    split
    · subst_vars; exact notMember.symm
    · rfl
  rw [State.setWait, same]

theorem onlyChannel_takeReport (notMember : s.waitOf c = none) (r : WaitReport) : OnlyChannel c s (s.takeReport c r) := by
  cases r with
  | satisfied =>
    rw [State.takeReport, State.waitSatisfied, setWait_same notMember]
    exact (onlyChannel_setChan s c _).trans (onlyChannel_complete _ c _)
  | lost p =>
    rw [State.takeReport, State.waitLost, setWait_same notMember]
    exact (onlyChannel_setChan s c _).trans (onlyChannel_complete _ c _)
  | still => exact .of_same (.refl s)

/-- The channels of some reports are WAITING, each once, and have left the wait set. -/
structure Reported (s : State) (l : List (Chan × WaitReport)) : Prop where
  waiting : ∀ r ∈ l, (s.chan r.1).state = .waiting ∧ s.waitOf r.1 = none
  once : (l.map (·.1)).Nodup

theorem tableBooks_leaveWaitSet (books : TableBooks s) (l : List (Chan × WaitReport)) : TableBooks (s.leaveWaitSet l) := by
  induction l generalizing s with
  | nil => exact books
  | cons r l ih => exact ih (tableBooks_setWait_none books r.1)

theorem once_waitReports (s : State) : (s.waitReports.map (·.1)).Nodup :=
  List.pairwise_map.2 ((waitReports_sorted s).imp fun less => ne_of_lt less)

/-- Who is reported by an evaluation has left the wait set after it, beside those reported before. -/
theorem Reported.append_waitReports (books : TableBooks s) {l : List (Chan × WaitReport)} (h : Reported s l) :
    Reported (s.leaveWaitSet s.waitReports) (l ++ s.waitReports) where
  waiting r hr := by
    rw [State.leaveWaitSet_chan, waitOf_leaveWaitSet]
    rcases List.mem_append.1 hr with before | new
    · obtain ⟨waiting, left⟩ := h.waiting r before
      exact ⟨waiting, by rw [left, ite_self]⟩
    · obtain ⟨-, m, member, -⟩ := mem_waitReports.1 (show (r.1, r.2) ∈ s.waitReports from new)
      exact ⟨books.waits r.1 (by rw [member]; nofun), if_pos (List.mem_map_of_mem new)⟩
  once := by
    rw [List.map_append, List.nodup_append]
    refine ⟨h.once, once_waitReports s, fun a ha b hb same => ?_⟩
    obtain ⟨r, hr, rfl⟩ := List.mem_map.1 ha
    obtain ⟨⟨d, q⟩, hq, rfl⟩ := List.mem_map.1 hb
    obtain ⟨-, m, member, -⟩ := mem_waitReports.1 hq
    rw [show d = r.1 from same.symm, (h.waiting r hr).2] at member
    cases member

/-- R156: the reports of one event delivered, with those that follow from a mark advance among them. -/
theorem tableBooks_deliverReports (fuel : Nat) {l : List (Chan × WaitReport)} (books : TableBooks s) (h : Reported s l) :
    TableBooks (State.deliverReports fuel l s) := by
  induction fuel generalizing s l with
  | zero => exact books
  | succ n ih =>
    cases l with
    | nil => exact books
    | cons r rest =>
      obtain ⟨waiting, left⟩ := h.waiting r List.mem_cons_self
      have taken := tableBooks_takeReport books waiting r.2
      have only := onlyChannel_takeReport left r.2
      obtain ⟨notRest, restOnce⟩ := List.nodup_cons.1 h.once
      have others : Reported (s.takeReport r.1 r.2) rest :=
        { waiting := fun q hq => by
            have another : q.1 ≠ r.1 := fun same => notRest (List.mem_map.2 ⟨q, hq, same⟩)
            rw [only.other q.1 another, only.waitOf]
            exact h.waiting q (List.mem_cons_of_mem r hq)
          once := restOnce }
      rw [State.deliverReports_cons]
      exact ih (tableBooks_leaveWaitSet taken _) (others.append_waitReports taken)

theorem tableKept_judgeWaits (h : s.judgeWaits = some t) : TableKept s t := by
  intro books
  obtain ⟨-, rfl⟩ := State.judgeWaits_spec h
  have nobody : Reported s [] := ⟨nofun, List.nodup_nil⟩
  exact tableBooks_deliverReports 8 (tableBooks_leaveWaitSet books _) (nobody.append_waitReports books)

/-- R155 case 1: a notice fails the WAITs of the members whose mask names the peer. -/
theorem tableKept_failWaitsOn (s : State) (p : Station) : TableKept s (s.failWaitsOn p) := by
  refine tableKept_foldl (fun s c => ?_) allChans s
  split
  · split
    · intro books
      have waiting : (s.chan c).state = .waiting := books.waits c (by rw [‹s.waitOf c = some _›]; nofun)
      exact tableBooks_takeReport books waiting (.lost p)
    · exact .refl s
  · exact .refl s

end Sys2Proof.Channels
end

section
/-! SUPPORT. The table books under the part's own steps, isolation, resets and every command: every step keeps them. -/
namespace Sys2Proof.Channels

open Sys2Proof Sys2Proof.Machine Sys2Proof.Safety

-- Each thread of the elaborator reserves 1 GB under the memory limit of the check.
set_option Elab.async false

variable {s t u : State} {c : Chan} {v : Tag} {e : Entry}

/-! ## The part's own steps -/

theorem tableKept_absentRetire (h : s.absentRetire v = some t) : TableKept s t := by
  obtain ⟨e, reason, -, -, -, rfl⟩ := State.absentRetire_spec h
  exact (SameTable.of_blocks : SameTable s (s.leaveWaitList v e.peer)).kept.trans (tableKept_retire _ v _)

/-- R116: a channel that ends its descriptor owns no entry and does not qualify. -/
theorem tableKept_descriptorEnd (h : s.descriptorEnd c = some t) : TableKept s t := by
  intro books
  obtain ⟨ends, rfl⟩ := State.descriptorEnd_spec h
  simp only [Channel.ends, Bool.and_eq_true, Bool.or_eq_true, decide_eq_true_eq] at ends
  obtain ⟨⟨busy, ownsNone⟩, notNext⟩ := ends
  refine (unlisted_of books ownsNone ?_ ?_ ?_).complete _
  · refine Bool.eq_false_iff.2 fun qualifies => ?_
    obtain ⟨-, flag, more, -⟩ := Descriptors.qualifies_iff.1 qualifies
    exact notNext.elim (absurd flag) (Nat.not_le_of_lt more)
  · by_contra member
    rw [books.waits c member] at busy
    simp at busy
  · rcases busy with state | state <;> rw [state] <;> decide

theorem sameTable_creditHanding {p : Station} (h : s.creditHanding p = some t) : SameTable s t := by
  obtain ⟨v, rest, e, seq, next, -, -, entry, -, -, -, rfl⟩ := State.creditHanding_spec h
  have handed (q : PeerEntry) : SameTable s ((s.setPeer p q).setEntry v
      (some { e with state := .queued, inTransmission := false, seq := some seq })) :=
    (SameTable.of_blocks : SameTable s (s.setPeer p q)).trans (sameTable_setEntry (s := s.setPeer p q) entry)
  exact (handed _).trans .of_blocks

theorem sameTable_ask (s : State) (p : Station) : SameTable s (s.ask p) := .of_blocks

theorem sameTable_asking {p : Station} (h : s.asking p = some t) : SameTable s t := by
  obtain ⟨-, -, -, rfl⟩ := State.asking_spec h
  exact sameTable_ask s p

theorem sameTable_granting (h : s.granting = some t) : SameTable s t := by
  obtain ⟨a, rest, -, -, -, g, -, rfl⟩ := State.granting_spec h
  exact .of_blocks

theorem sameTable_leaveQueued (h : s.leaveQueued = some t) : SameTable s t := by
  obtain ⟨-, -, -, -, rfl⟩ := State.leaveQueued_spec h
  exact .of_blocks

theorem sameTable_accessGrant (h : s.accessGrant = some t) : SameTable s t := by
  obtain ⟨-, ⟨a, rest, -, -, rfl⟩ | ⟨b, rest, -, -, rfl⟩⟩ := State.accessGrant_spec h
  · exact .of_blocks
  · obtain ⟨x, y, h⟩ := State.grantInbound_frame s b rest
    rw [h]
    exact .of_blocks

theorem tableKept_ownStep (h : s.ownStep = some t) : TableKept s t := by
  rcases State.ownStep_cases h with ⟨v, h⟩ | h | ⟨c, h⟩ | h | ⟨p, h⟩ | ⟨p, h⟩ | h | h | h | h
  · exact tableKept_absentRetire h
  · exact tableKept_judgeWaits h
  · exact tableKept_descriptorEnd h
  · exact tableKept_recordWriteIssue h
  · exact (sameTable_creditHanding h).kept
  · exact (sameTable_asking h).kept
  · exact tableKept_entryAllocation h
  · exact (sameTable_granting h).kept
  · exact (sameTable_leaveQueued h).kept
  · exact (sameTable_accessGrant h).kept

theorem tableKept_settle (s : State) : TableKept s s.settle :=
  State.settle_rel .refl (fun _ _ _ => .trans) (fun _ _ => tableKept_ownStep) s

/-- What leaves the table books as they are, and then lets the part take its own steps. -/
theorem SameTable.settle (h : SameTable s t) : TableKept s t.settle := h.kept.trans (tableKept_settle t)

theorem TableKept.settle (h : TableKept s t) : TableKept s t.settle := h.trans (tableKept_settle t)

/-! ## Entries: replies, aborts, cleanup -/

theorem sameTable_returnCredit (s : State) (p : Station) : SameTable s (s.returnCredit p) := .of_blocks

theorem sameTable_leaveForReply (s : State) (v : Tag) (e : Entry) : SameTable s (s.leaveForReply v e) := by
  unfold State.leaveForReply
  split
  · exact .of_blocks
  · exact .of_blocks
  · exact sameTable_modEntry s v fun e => { e with replyTimer := .stopped }
  · exact .refl s
  · exact .refl s

theorem tableKept_settleRead (s : State) (v : Tag) (e : Entry) (payload : List Byte) :
    TableKept s (s.settleRead v e payload) := by
  unfold State.settleRead
  split
  · exact tableKept_retire s v _
  · have stored := sameTable_modEntry s v fun e => { e with state := .storing, replyTimer := .stopped, buffer := payload }
    exact (stored.trans .of_blocks).kept

theorem tableKept_takeReply (s : State) (r : ReplyHeard) : TableKept s (s.takeReply r) := by
  unfold State.takeReply
  split
  · exact .refl s
  rename_i e _
  split
  · have left := (sameTable_leaveForReply s r.tag e).kept
    simp only [State.settleReply]
    split
    · split
      · exact left.trans (tableKept_retire _ _ _)
      · exact left.trans (tableKept_settleRead _ _ e _)
    · exact left.trans (tableKept_retire _ _ _)
    · exact left.trans (tableKept_retire _ _ _)
    · exact left.trans (tableKept_retire _ _ _)
    · have lost (w : State) : SameTable w (w.modPeer e.peer fun q => { q with held := 0 }) := .of_blocks
      simp only [State.settleNoCredit]
      split
      · exact (left.trans (lost _).kept).trans (tableKept_retire _ _ _)
      · exact (left.trans (lost _).kept).trans (sameTable_joinWaitList _ _ _).kept
  · exact .refl s

theorem tableKept_expireReply (s : State) (v : Tag) (e : Entry) : TableKept s (s.expireReply v e) := by
  unfold State.expireReply
  split
  · exact tableKept_retire s v _
  split
  · exact (sameTable_joinWaitList s v _).kept
  · exact tableKept_retire s v _

theorem tableKept_endLoad (entry : s.entry v = some e) (o : AccessEnd) : TableKept s (s.endLoad v e o) := by
  unfold State.endLoad
  split
  · exact tableKept_retire s v _
  · exact tableKept_retire s v _
  split
  · exact tableKept_retire s v _
  · exact ((sameTable_setEntry entry).trans (sameTable_joinWaitList _ v _)).kept

theorem sameTable_foldl {α : Type} {f : State → α → State} (h : ∀ s a, SameTable s (f s a)) (l : List α) (s : State) :
    SameTable s (l.foldl f s) := by
  induction l generalizing s with
  | nil => exact .refl s
  | cons a l ih => exact (h s a).trans (ih (f s a))

theorem sameTable_markAborting (s : State) (c : Chan) : SameTable s (s.markAborting c) := by
  refine sameTable_foldl (fun s v => ?_) allTags s
  split
  · exact .refl s
  split
  · rename_i e entry _
    have marked : SameTable s (s.setEntry v (some { e with aborting := true })) := sameTable_setEntry entry
    dsimp only
    split
    · exact marked.trans .of_blocks
    · exact marked
  · exact .refl s

theorem tableKept_abortEntry (s : State) (c : Chan) (v : Tag) : TableKept s (s.abortEntry c v) := by
  unfold State.abortEntry
  split
  · exact .refl s
  split
  · split
    · exact tableKept_retire s v _
    · split
      · exact .refl s
      · exact (SameTable.of_blocks : SameTable s ((s.withdrawRequest v).returnCredit _)).kept.trans
          (tableKept_retire _ v _)
    all_goals exact .refl s
  · exact .refl s

theorem tableKept_abortEntries (s : State) (c : Chan) : TableKept s (s.abortEntries c) :=
  (sameTable_markAborting s c).kept.trans
    (tableKept_foldl (fun s v => (tableKept_abortEntry s c v).settle) allTags _)

theorem tableKept_cleanupEntry (entry : s.entry v = some e) (why : FaultCode) : TableKept s (s.cleanupEntry why v e) := by
  have left (w : State) (h : SameTable s w) : TableKept s (w.retire v (e.failedOrAborted why)) :=
    h.kept.trans (tableKept_retire w v _)
  unfold State.cleanupEntry
  split
  · exact left _ .of_blocks
  · split
    · exact left _ .of_blocks
    · exact left _ .of_blocks
  · exact left _ (.refl s)
  · exact (sameTable_setEntry entry).kept
  · exact .refl s

theorem sameTable_markStale (s : State) (p : Station) : SameTable s (s.markStale p) := by
  obtain ⟨x, h⟩ := PeerTable.foldl_modSlot_frame (fun x => if x.requester = p then { x with stale := true } else x) allSlots s
  rw [State.markStale, h]
  exact .of_blocks

theorem tableKept_cleanup (s : State) (p : Station) (why : FaultCode) : TableKept s (s.cleanup p why) := by
  have entries : TableKept s (State.cleanupEntries p why 64 s) :=
    PeerBus.cleanupEntries_keeps (P := TableKept s) (fun _ h => h.settle)
      (fun _ why _ _ entry h => h.trans (tableKept_cleanupEntry entry why)) p why 64 (.refl s)
  have forgotten (w : State) : SameTable w ((w.cleanupCredit p).modPeer p fun q => { q with served := [] }) := .of_blocks
  exact entries.trans ((forgotten _).trans (sameTable_markStale _ p)).kept

/-! ## What is heard (R22, R38 to R41) -/

theorem tableKept_presenceUpdate (s : State) (p : Station) (inc : Byte) (mark : Option Word) (isJoin : Bool) :
    TableKept s (s.presenceUpdate p inc mark isJoin) := by
  have heard (w : State) : SameTable w ((w.hearPresent p inc mark).addChange p) := .of_blocks
  unfold State.presenceUpdate
  split
  · exact (heard s).kept
  · exact (heard s).kept
  split
  · exact (SameTable.of_blocks : SameTable s (s.modPeer p _)).kept
  · exact ((tableKept_cleanup s p _).trans (heard _).kept).trans (tableKept_failWaitsOn _ p)

theorem tableKept_leaveUpdate (s : State) (p : Station) (inc : Byte) (mark : Word) :
    TableKept s (s.leaveUpdate p inc mark) := by
  have left (w : State) (f : PeerEntry → PeerEntry) : SameTable w ((w.modPeer p f).addChange p) := .of_blocks
  have absent := (tableKept_cleanup s p .peerLeft).trans (left _ fun q =>
    { q with state := .absent .left, incarnation := some inc, mark := some mark, silence := .stopped }).kept
  exact iteInduction (motive := TableKept s) (fun _ => absent) fun _ => absent.trans (tableKept_failWaitsOn _ p)

theorem tableKept_silenceUpdate (s : State) (p : Station) : TableKept s (s.silenceUpdate p) := by
  have silent (w : State) (f : PeerEntry → PeerEntry) : SameTable w ((w.modPeer p f).addChange p) := .of_blocks
  exact ((tableKept_cleanup s p .peerLost).trans (silent _ _).kept).trans (tableKept_failWaitsOn _ p)

theorem tableKept_deliverReply (s : State) (p : Station) (inc : Byte) (kind : ReqKind) (tag seq echo status : Byte)
    (payload : List Byte) : TableKept s (s.deliverReply p inc kind tag seq echo status payload) := by
  have present := tableKept_presenceUpdate s p inc none false
  unfold State.deliverReply
  split
  · exact present
  · exact present.trans (tableKept_takeReply _ _)

theorem sameTable_takeAsk (s : State) (p : Station) (n : Nat) : SameTable s (s.takeAsk p n) := by
  unfold State.takeAsk
  split
  · exact .of_blocks
  split
  · split
    · exact .refl s
    · exact .of_blocks
  · exact .refl s

theorem sameTable_takeGrant (s : State) (p : Station) (n : Nat) (echo : Byte) : SameTable s (s.takeGrant p n echo) := by
  unfold State.takeGrant
  split
  · exact .of_blocks
  · exact .refl s

/-! ## The inbound server -/

theorem sameTable_replySlot (s : State) (i : SlotNo) (status : ReplyStatus) : SameTable s (s.replySlot i status) := by
  unfold State.replySlot
  split
  · exact .refl s
  · exact .of_blocks

theorem sameTable_recordServed (s : State) (x : Slot) (status : ReplyStatus) : SameTable s (s.recordServed x status) := by
  unfold State.recordServed
  split
  · exact .of_blocks
  · exact .refl s

theorem sameTable_checkWindow (s : State) (i : SlotNo) (x : Slot) : SameTable s (s.checkWindow i x) := by
  have refuse (status : ReplyStatus) : SameTable s (s.refuseSlot i x status) :=
    (sameTable_recordServed s x status).trans (sameTable_replySlot _ i status)
  simp only [State.checkWindow]
  split
  · exact refuse _
  split
  · exact refuse _
  · exact .of_blocks

theorem sameTable_checkArrival (s : State) (i : SlotNo) (x : Slot) : SameTable s (s.checkArrival i x) := by
  unfold State.checkArrival
  split
  · exact sameTable_checkWindow s i x
  split
  · exact sameTable_replySlot s i _
  split
  · exact .of_blocks
  · exact sameTable_checkWindow s i x

theorem sameTable_takeRequest (s : State) (r : Request) : SameTable s (s.takeRequest r) := by
  unfold State.takeRequest
  split
  · split
    · unfold State.takeSlot
      refine SameTable.trans ?_ (sameTable_checkArrival _ _ _)
      exact .of_blocks
    · exact .refl s
  · unfold State.refuse
    split
    · exact .of_blocks
    · exact .refl s

theorem sameTable_endSlotAccess (s : State) (i : SlotNo) (first : Nat) (e : AccessEnd) :
    SameTable s (s.endSlotAccess i first e) := by
  have notice (w : State) (x : Slot) (status : ReplyStatus) : SameTable w (w.notice x status) := by
    unfold State.notice
    split
    · exact .of_blocks
    · exact .refl w
  have set (x : Slot) : SameTable s (s.setSlot i (some x)) := .of_blocks
  unfold State.endSlotAccess
  split
  · exact .refl s
  · exact ((((set _).trans (sameTable_recordServed _ _ _)).trans (notice _ _ _)).trans (sameTable_replySlot _ i _)).trans
      (sameTable_foldl (fun w j => sameTable_replySlot w j _) _ _)

/-! ## Isolation (R14, R126, R146) -/

/-- At isolation a channel is no member of the wait set and does not run, once it has been isolated. -/
def Halted (s : State) (c : Chan) : Prop := s.waitOf c = none ∧ (s.chan c).state ≠ .running

/-- Isolation of the channels begins with an empty ready list, which stays so. -/
theorem tableBooks_isolateChannel (books : TableBooks s) (empty : s.readyList = []) (c : Chan) :
    TableBooks (s.isolateChannel c) ∧ (s.isolateChannel c).readyList = [] := by
  have notReady : c ∉ s.readyList := by rw [empty]; exact List.not_mem_nil
  obtain ⟨f, fault⟩ := channelFault_frame (s.chan c) .isolated none
  obtain ⟨nextIssued, sum⟩ := books.counters c
  unfold State.isolateChannel
  dsimp only
  split
  case h_1 | h_2 => exact ⟨books, empty⟩
  case h_3 state | h_4 state | h_5 state =>
    refine ⟨?_, empty⟩
    have member : s.waitOf c = none := by_contra fun member => by rw [books.waits c member] at state; cases state
    have record : ¬ (c ∈ s.ring.waitList ∨ s.ring.inProgress = some c) := fun record => by
      rw [books.records c record] at state; cases state
    have busy : (s.chan c).isolateBusy = { s.chan c with
        flag := .stopping, state := if (s.chan c).state = .running then .draining else (s.chan c).state, fault := f } := by
      rw [Channel.isolateBusy, fault]
    rw [busy]
    refine tableBooks_setChan books ?_ rfl notReady
    refine ⟨books.perChannel c, fun running draining => books.atRest c (fun state => ?_) fun state => ?_, books.counters c,
      fun m => absurd member m, fun r => absurd r record⟩
    all_goals simp [state] at draining
  case h_6 state =>
    refine ⟨?_, empty⟩
    rw [fault]
    have left := unlisted_setWait_none books state
    exact (left.setChan left.ownsNone left.counted (x := { s.chan c with fault := f, waitTimer := .stopped })).toTableBooks
  case h_7 state =>
    refine ⟨tableBooks_setChan books ?_ rfl notReady, empty⟩
    exact ⟨books.perChannel c, books.atRest c, books.counters c, books.waits c, books.records c⟩

theorem isolateChannel_other (s : State) {c d : Chan} (hd : d ≠ c) :
    (s.isolateChannel c).chan d = s.chan d ∧ (s.isolateChannel c).waitOf d = s.waitOf d := by
  have chan (w : State) (x : Channel) : (w.setChan c x).chan d = w.chan d := State.chan_setChan_of_ne w (Ne.symm hd) x
  unfold State.isolateChannel
  dsimp only
  split
  case h_1 | h_2 => exact ⟨rfl, rfl⟩
  case h_6 => exact ⟨chan _ _, State.waitOf_setWait_of_ne s (Ne.symm hd) none⟩
  all_goals exact ⟨chan _ _, rfl⟩

theorem isolateBusy_state (ch : Channel) : ch.isolateBusy.state ≠ .running := by
  unfold Channel.isolateBusy
  dsimp only
  split
  · decide
  · assumption

/-- A channel once isolated is halted. -/
theorem halted_isolateChannel (books : TableBooks s) (c : Chan) : Halted (s.isolateChannel c) c := by
  have noMember (h : (s.chan c).state ≠ .waiting) : s.waitOf c = none :=
    by_contra fun member => h (books.waits c member)
  unfold State.isolateChannel
  dsimp only
  split
  case h_1 state | h_2 state => exact ⟨noMember (by rw [state]; decide), by rw [state]; decide⟩
  case h_6 state =>
    obtain ⟨f, fault⟩ := channelFault_frame (s.chan c) .isolated none
    refine ⟨State.waitOf_setWait_self s c none, ?_⟩
    rw [State.chan_setChan_self, fault]
    exact fun running => by rw [state] at running; cases running
  case h_7 state =>
    refine ⟨noMember (by rw [state]; decide), ?_⟩
    rw [State.chan_setChan_self]
    exact fun running => by rw [state] at running; cases running
  all_goals
    rename_i state
    refine ⟨noMember (by rw [state]; decide), ?_⟩
    rw [State.chan_setChan_self]
    exact isolateBusy_state (s.chan c)

theorem halted_isolateChannels (l : List Chan) (books : TableBooks s) (empty : s.readyList = []) :
    TableBooks (l.foldl State.isolateChannel s) ∧
      ∀ c, c ∈ l ∨ Halted s c → Halted (l.foldl State.isolateChannel s) c := by
  induction l generalizing s with
  | nil => exact ⟨books, fun c h => h.elim (absurd · List.not_mem_nil) id⟩
  | cons a l ih =>
    obtain ⟨isolated, stillEmpty⟩ := tableBooks_isolateChannel books empty a
    obtain ⟨kept, halted⟩ := ih isolated stillEmpty
    refine ⟨kept, fun c h => halted c ?_⟩
    by_cases own : c = a
    · exact .inr (own ▸ halted_isolateChannel books a)
    · refine h.imp (fun member => (List.mem_cons.1 member).resolve_left own) fun before => ?_
      obtain ⟨chan, wait⟩ := isolateChannel_other s own
      exact ⟨wait.trans before.1, chan ▸ before.2⟩

/-- The table books are kept and every channel is halted. -/
structure Isolating (s : State) : Prop extends TableBooks s where
  halted : ∀ c, Halted s c

/-- With FAULTED a record is due, so the channel stays in COMPLETING (R118). -/
theorem complete_faulted_state (s : State) (c : Chan) : ((s.complete c .faulted).chan c).state = .completing := by
  rw [Descriptors.complete_due rfl, State.testRecordWrite_chan]
  exact congrArg Channel.state (State.chan_setChan_self s c _)

/-- R126: a channel that isolation ends enters COMPLETING with a record due. -/
theorem Isolating.endIsolated (h : Isolating s) (c : Chan) : Isolating (s.endIsolated c) := by
  unfold State.endIsolated
  split
  · rename_i ends
    have unlisted : Unlisted s c := by
      have busy : (s.chan c).owned = 0 ∧ (s.chan c).state ≠ .completing := by
        unfold Channel.endsIsolated at ends
        split at ends
        · rename_i state
          exact ⟨h.atRest c (by rw [state]; decide) (by rw [state]; decide), by rw [state]; decide⟩
        · rename_i state
          exact ⟨of_decide_eq_true ends, by rw [state]; decide⟩
        · rename_i state
          exact ⟨of_decide_eq_true ends, by rw [state]; decide⟩
        all_goals cases ends
      exact unlisted_of h.toTableBooks busy.1 (not_qualifies_of_state (h.halted c).2) (h.halted c).1 busy.2
    have only := onlyChannel_complete s c .faulted
    refine ⟨unlisted.complete .faulted, fun d => ⟨(only.waitOf d).trans (h.halted d).1, ?_⟩⟩
    by_cases own : d = c
    · subst own
      rw [complete_faulted_state]
      decide
    · rw [only.other d own]
      exact (h.halted d).2
  · exact h

theorem Isolating.retire (h : Isolating s) (v : Tag) (o : PieceOutcome) : Isolating (s.retire v o) := by
  refine ⟨tableKept_retire s v o h.toTableBooks, fun d => ?_⟩
  cases entry : s.entry v with
  | none => rw [retire_free entry]; exact h.halted d
  | some e =>
    rw [retire_eq entry]
    refine ⟨(h.halted d).1, ?_⟩
    rw [State.retestReady_chan, State.chan_setChan]
    split
    · subst_vars
      rcases (oneLess_applyOutcome (s.chan e.chan) o e.piece e.peer).state with same | draining
      · exact same ▸ (h.halted e.chan).2
      · rw [draining]; decide
    · exact (h.halted d).2

theorem isolating_foldl {α : Type} {f : State → α → State} (step : ∀ s a, Isolating s → Isolating (f s a)) (l : List α)
    (h : Isolating s) : Isolating (l.foldl f s) := by
  induction l generalizing s with
  | nil => exact h
  | cons a l ih => exact ih (step s a h)

theorem Isolating.isolateEntry (h : Isolating s) (v : Tag) : Isolating (s.isolateEntry v) := by
  have below (c : Chan) : Isolating (s.endIsolatedBelow c) := by
    unfold State.endIsolatedBelow
    split
    · exact isolating_foldl (fun _ c h => h.endIsolated c) _ h
    · exact h
  unfold State.isolateEntry
  split
  · exact h
  rename_i e entry
  split
  case h_4 => exact ⟨(sameTable_setEntry entry).kept h.toTableBooks, h.halted⟩
  case h_5 => exact h
  all_goals exact ((below _).retire v _).endIsolated _

/-- R14: the entry into ISOLATED. -/
theorem tableKept_isolate (s : State) : TableKept s s.isolate := by
  intro books
  have left : SameTable s (s.leaveBus.discardSlots.clearPeers.clearNotices.stopStationTimers.enterStation .isolated) := by
    obtain ⟨w, h⟩ := PeerBus.clearNotices_frame s.leaveBus.discardSlots.clearPeers
    rw [h]
    exact .of_blocks
  unfold State.isolate
  dsimp only
  generalize s.leaveBus.discardSlots.clearPeers.clearNotices.stopStationTimers.enterStation .isolated = w at left
  obtain ⟨kept, halted⟩ := halted_isolateChannels (s := { w with readyList := [] }) allChans
    (tableBooks_unready (left.kept books)) rfl
  have channels : Isolating (allChans.foldl State.isolateChannel { w with readyList := [] }) :=
    ⟨kept, fun c => halted c (.inl (Descriptors.mem_allChans c))⟩
  have entries := isolating_foldl (fun _ v h => h.isolateEntry v) allTags channels
  exact tableKept_settle _ (isolating_foldl (fun _ c h => h.endIsolated c) allChans entries).toTableBooks

end Sys2Proof.Channels
end

section
/-! SUPPORT. From the operations to the commands: every step keeps the table books. -/
namespace Sys2Proof.Channels

open Sys2Proof Sys2Proof.Machine Sys2Proof.Safety

-- Each thread of the elaborator reserves 1 GB under the memory limit of the check.
set_option Elab.async false

variable {s t u : State}

/-! ## The shapes that meanings have -/

/-- A command taken by a write of CMD: what its decision keeps, it keeps. -/
theorem tableKept_takeCommand {code operand : Byte} {decision : State → State × ResultCode}
    (h : ∀ u : State, TableKept u (decision u).1) : TableKept s (s.takeCommand code operand decision) := by
  by_cases running : s.phase = .running
  · rw [State.takeCommand_running running]
    exact ((SameTable.of_blocks : SameTable s (commanded s code operand)).kept.trans (h _)).trans (SameTable.kept .of_blocks)
  · rw [State.takeCommand_silent running]
    exact .refl s

/-- A command that one station state takes. -/
theorem tableKept_inStateOnly {st : StationState} {decision : State → State × ResultCode}
    (h : TableKept s (decision s).1) : TableKept s (s.inStateOnly st decision).1 :=
  PeerBus.inStateOnly_keeps (P := TableKept s) (fun _ => h) (.refl s)

/-- A message heard (R22): what its delivery keeps, the command keeps. -/
theorem tableKept_hearFrom {source : Byte} {ok : Bool} {take : Station → State → State}
    (h : ∀ (p : Station) (u : State), TableKept u (take p u)) : TableKept s (s.hearFrom source ok take) := by
  have ended (r : SlotRef) : TableKept s (s.activityEnd r) := SameTable.kept .of_blocks
  unfold State.hearFrom
  split
  · exact .refl s
  split
  · exact ended _
  split
  · exact tableKept_isolate s
  split
  · exact ended _
  split
  · exact ((ended _).trans (h _ _)).settle
  · exact ended _

/-- The end of an access (R162): what its report keeps, it keeps. -/
theorem tableKept_finishAccess {cur : CurrentAccess} {e : AccessEnd} {report : State → State}
    (h : ∀ u : State, TableKept u (report u)) : TableKept s (s.finishAccess cur e report) := by
  have wrote : SameTable s (s.applyWrite cur.access e) := by
    unfold State.applyWrite
    split
    · exact .of_blocks
    · exact .refl s
  have reported : TableKept s (if cur.dropped then s.applyWrite cur.access e else report (s.applyWrite cur.access e)) :=
    iteInduction (fun _ => wrote.kept) fun _ => wrote.kept.trans (h _)
  have idle (u : State) : SameTable u { u with port := { u.port with current := none } } := .of_blocks
  exact (reported.trans (idle _).kept).settle

/-- A row of a step of the part itself. -/
theorem tableKept_ownRow {step : Option State} (h : ∀ t, step = some t → TableKept s t) : TableKept s (s.ownRow step) := by
  unfold State.ownRow
  cases step with
  | none => exact tableKept_settle s
  | some t => exact (h t rfl).settle

/-! ## Resets and station states -/

/-- The channel engine, the transaction table, the wait set and the ring at their reset contents. -/
theorem tableBooks_of_reset (channels : t.channels = .replicate 8 .cleared) (entries : t.entries = .replicate 16 none)
    (readyList : t.readyList = []) (marks : t.marks = .cleared) (ring : t.ring = .cleared) : TableBooks t := by
  have chan (c : Chan) : t.chan c = .cleared := by simp [State.chan, channels]
  have entry (v : Tag) : t.entry v = none := by simp [State.entry, entries]
  have waitOf (c : Chan) : t.waitOf c = none := by simp [State.waitOf, marks, MarkUnit.cleared]
  have owned : Channel.cleared.owned = 0 := rfl
  exact
    { perPeer := fun p => by simp [State.entriesTo, entry]
      perChannel := fun c => by rw [chan, owned]; exact Nat.zero_le _
      owned := fun c => by rw [chan]; simp [Safety.entriesOf, entry, owned]
      atRest := fun c _ _ => by rw [chan, owned]
      counters := fun c => by rw [chan]; exact ⟨rfl, le_rfl⟩
      ready := by rw [readyList]; nofun
      readyOnce := by rw [readyList]; exact List.nodup_nil
      waits := fun c member => absurd (waitOf c) member
      records := by rw [ring]; rintro c (h | h) <;> cases h
      recordsOnce := by rw [ring]; exact ⟨List.nodup_nil, nofun⟩ }

theorem tableKept_softReset (s : State) : TableKept s s.softResetBlocks := fun _ => by
  unfold State.softResetBlocks
  dsimp only
  split
  · exact tableBooks_of_reset rfl rfl rfl rfl rfl
  · exact tableBooks_of_reset rfl rfl rfl rfl rfl

theorem sameTable_enterJoining (s : State) (inc : Byte) : SameTable s (s.enterJoining inc) := by
  obtain ⟨x, h⟩ := PeerBus.clearSequences_frame { s with
    station := { s.station with incarnation := some inc, joinListen := .running s.silenceTimeout }
    marks := { s.marks with own := 0#16 } }
  unfold State.enterJoining
  dsimp only
  rw [h]
  exact .of_blocks

theorem sameTable_enterLeaving (s : State) : SameTable s s.enterLeaving := by
  have cleared (w : State) : SameTable w w.clearAsked := sameTable_foldl (fun _ _ => .of_blocks) allStations w
  exact SameTable.trans .of_blocks (cleared _)

theorem sameTable_endSession (s : State) : SameTable s s.endSession := by
  obtain ⟨w, h⟩ := PeerBus.clearNotices_frame s.clearPeers
  unfold State.endSession
  rw [h]
  exact .of_blocks

/-! ## Host commands -/

theorem tableKept_setWindow (operand : Byte) (h : execSetWindow operand s = .next t) : TableKept s t := by
  cases h
  refine tableKept_takeCommand fun u => tableKept_inStateOnly ?_
  split
  · split
    · exact SameTable.kept .of_blocks
    · exact .refl u
  · exact .refl u

theorem tableKept_start (operand : Byte) (h : execStart operand s = .next t) : TableKept s t := by
  cases h
  refine tableKept_takeCommand fun u => ?_
  split
  · exact .refl u
  split
  · exact .refl u
  rename_i c _
  split
  · exact .refl u
  split
  · exact .refl u
  split
  · refine TableKept.settle fun books => ?_
    have idle : (u.chan c).state = .idle := by simpa using ‹¬ (u.chan c).state ≠ .idle›
    have unlisted : Unlisted u c := by apply unlisted_of_state books <;> rw [idle] <;> decide
    have begun := unlisted.setChan (x := (u.chan c).begin u.param32) rfl ⟨rfl, le_rfl⟩
    exact (begun.same .of_blocks).toTableBooks
  · exact .refl u

/-- R121: ABORT of a RUNNING or DRAINING channel. -/
theorem tableKept_abortRunning (s : State) (c : Chan) (busy : (s.chan c).state = .running ∨ (s.chan c).state = .draining) :
    TableKept s (s.abortRunning c) := by
  refine (TableKept.trans (fun books => ?_) (tableKept_abortEntries _ c)).settle
  have draining : (if (s.chan c).state = .running then .draining else (s.chan c).state) = ChanState.draining := by
    split
    · rfl
    · exact busy.resolve_left ‹_›
  have notWaiting : (s.chan c).state ≠ .waiting := by rcases busy with state | state <;> rw [state] <;> decide
  have notCompleting : (s.chan c).state ≠ .completing := by rcases busy with state | state <;> rw [state] <;> decide
  refine tableBooks_retestReady (tableBooks_setChan (s := { s with readyList := [] }) (tableBooks_unready books) ?_ rfl
    List.not_mem_nil) books.readyOnce
  exact ⟨books.perChannel c, fun _ other => absurd draining other, books.counters c,
    fun member => absurd (books.waits c member) notWaiting, fun record => absurd (books.records c record) notCompleting⟩

theorem tableKept_abortChannel (s : State) (c : Chan) : TableKept s (s.abortChannel c).1 := by
  have completing (state : (s.chan c).state = .completing) : TableKept s (s.abortCompleting c).1 := by
    simp only [State.abortCompleting]
    split
    · intro books
      have notReady := not_ready books (not_qualifies_of_state (c := c) (by rw [state]; decide))
      refine tableBooks_setChan books ?_ rfl notReady
      exact ⟨books.perChannel c, books.atRest c, books.counters c, books.waits c, books.records c⟩
    · exact .refl s
  unfold State.abortChannel
  dsimp only
  split
  case h_3 state _ =>
    intro books
    have unlisted : Unlisted s c := by apply unlisted_of_state books <;> rw [state] <;> decide
    exact (unlisted.setChan (x := { s.chan c with flag := .aborting }) unlisted.ownsNone unlisted.counted).toTableBooks
  case h_6 state _ => dsimp only; exact tableKept_abortRunning s c (.inl state)
  case h_7 state _ => dsimp only; exact tableKept_abortRunning s c (.inr state)
  case h_12 state =>
    refine TableKept.settle fun books => ?_
    have left := unlisted_setWait_none books state
    exact (left.setChan (x := { s.chan c with waitTimer := .stopped }) left.ownsNone left.counted).complete .aborted
  case h_13 state => exact completing state
  all_goals exact .refl s

theorem tableKept_clear (operand : Byte) (h : execClear operand s = .next t) : TableKept s t := by
  cases h
  refine tableKept_takeCommand fun u => ?_
  split
  · exact .refl u
  rename_i c _
  split
  · intro books
    have faulted : (u.chan c).state = .faulted := ‹_›
    have unlisted : Unlisted u c := by apply unlisted_of_state books <;> rw [faulted] <;> decide
    exact (unlisted.setChan (x := { u.chan c with state := .idle, fault := none, flag := .none, addr := none, copy := none })
      unlisted.ownsNone unlisted.counted).toTableBooks
  · exact .refl u

theorem tableKept_readChannel (operand : Byte) (h : execReadChannel operand s = .next t) : TableKept s t := by
  cases h
  refine tableKept_takeCommand fun u => ?_
  split
  · exact .refl u
  split
  · exact .refl u
  · exact SameTable.kept .of_blocks

/-! ## Other host writes -/

theorem tableKept_consumerWrite (v : Word) (h : execConsumerWrite v s = .next t) : TableKept s t := by
  cases h
  have consumed (x : Word) : SameTable s { s with ring := { s.ring with consumer := x } } := .of_blocks
  split
  · split
    · exact ((consumed v).kept.trans (tableKept_testRecordWrite _)).settle
    · exact SameTable.kept .of_blocks
  · exact .refl s

theorem tableKept_registerWrite (addr : BitVec 7) (w : Word) (h : execRegisterWrite addr w s = .next t) :
    TableKept s t := by
  cases h
  split
  · split
    · exact SameTable.kept .of_blocks
    · exact .refl s
  · exact .refl s

/-! ## Transmission -/

theorem sameTable_send (s : State) (repliesOnly : Bool) : SameTable s (s.send repliesOnly) := by
  unfold State.send
  split
  · exact .of_blocks
  split
  · exact .refl s
  split
  · exact .of_blocks
  unfold State.sendRequest
  split
  · exact .refl s
  rename_i v rest _
  split
  · exact .refl s
  · rename_i e entry
    have taken : SameTable s { s with bus := { s.bus with requestQueue := rest } } := .of_blocks
    have sending := sameTable_setEntry (s := { s with bus := { s.bus with requestQueue := rest } }) entry
      (f := { e with inTransmission := true })
    exact (taken.trans sending).trans .of_blocks

theorem sameTable_busSlotStart (n : Nat) (h : execBusSlotStart n s = .next t) : SameTable s t := by
  cases h
  have counted (m : Nat) : SameTable s (s.countTo m) := .of_blocks
  split
  · exact .refl s
  split
  · exact (counted _).trans (sameTable_send _ _)
  · exact .refl s

theorem sameTable_coldGuardExpiry (n : Nat) (h : execColdGuardExpiry n s = .next t) : SameTable s t := by
  cases h
  have counted (m : Nat) : SameTable s (s.countTo m) := .of_blocks
  split
  · exact .refl s
  split
  · exact (counted _).trans (sameTable_send _ _)
  · exact .refl s

theorem sameTable_reportSent (s : State) (item : Outgoing) : SameTable s (s.reportSent item) := by
  unfold State.reportSent
  split
  · split
    · exact .of_blocks
    · exact .of_blocks
  · exact sameTable_endSession s
  case h_7 v => exact sameTable_modEntry s v fun e => e.sentNow s.replyTimeout
  all_goals exact .refl s

theorem tableKept_transmissionEnd (h : execTransmissionEnd s = .next t) : TableKept s t := by
  cases h
  split
  · exact .refl s
  refine SameTable.settle ?_
  unfold State.endTransmission
  split
  · exact .of_blocks
  · exact SameTable.trans .of_blocks (sameTable_reportSent _ _)

theorem tableKept_returnToQueue (s : State) (item : Outgoing) : TableKept s (s.returnToQueue item) := by
  unfold State.returnToQueue
  split
  · exact SameTable.kept .of_blocks
  · exact SameTable.kept .of_blocks
  rename_i v
  split
  · exact .refl s
  rename_i e entry
  have unsent : SameTable s (s.setEntry v (some { e with inTransmission := false })) := sameTable_setEntry entry
  dsimp only
  split
  · exact (unsent.trans (sameTable_returnCredit _ _)).kept.trans (tableKept_retire _ _ _)
  · exact (unsent.trans .of_blocks).kept

theorem tableKept_transmissionClash (h : execTransmissionClash s = .next t) : TableKept s t := by
  cases h
  split
  · exact .refl s
  have ended (n : Nat) : SameTable s { s with bus := { s.bus with
    transmit := none, clashCount := n, slotRef := .cold, line := .abandoned, slotClock := 0 } } := .of_blocks
  refine TableKept.settle ?_
  simp only [State.clash]
  split
  · exact (ended _).kept.trans (tableKept_isolate _)
  split
  · exact (ended _).kept
  · exact (ended _).kept.trans (tableKept_returnToQueue _ _)

/-! ## Timers -/

theorem tableKept_askTimerExpiry (p : Station) (h : execAskTimerExpiry p s = .next t) : TableKept s t := by
  cases h
  have stopped : SameTable s (s.modPeer p fun q => { q with asked := false, askTimer := .stopped }) := .of_blocks
  split
  · split
    · exact (sameTable_ask s p).settle
    · exact stopped.settle
  · exact .refl s

theorem tableKept_replyTimerExpiry (v : Tag) (h : execReplyTimerExpiry v s = .next t) : TableKept s t := by
  cases h
  split
  · exact .refl s
  split
  · exact (tableKept_expireReply s v _).settle
  · exact .refl s

theorem tableKept_waitTimerExpiry (c : Chan) (h : execWaitTimerExpiry c s = .next t) : TableKept s t := by
  cases h
  split
  · have expires := Bool.and_eq_true_iff.1 ‹(decide ((s.chan c).state = .waiting) && (s.chan c).waitTimer.isRunning) = true›
    exact TableKept.settle fun books =>
      (unlisted_setWait_none books (of_decide_eq_true expires.1)).failChannel .waitExpired none
  · exact .refl s

/-! ## Ends of local accesses -/

/-- R109, R110, R117: a FETCHING channel takes its copy. -/
theorem tableKept_endFetch (s : State) (c : Chan) (data : Option (List Byte)) : TableKept s (s.endFetch c data) := by
  intro books
  simp only [State.endFetch]
  split
  · exact books
  have fetching : (s.chan c).state = .fetching := by simpa using ‹¬ (s.chan c).state ≠ .fetching›
  have unlisted : Unlisted s c := by apply unlisted_of_state books <;> rw [fetching] <;> decide
  split
  · obtain ⟨f, fault⟩ := channelFault_frame (s.chan c) .localBus none
    split
    · rw [fault]
      exact (unlisted.setChan (x := { s.chan c with fault := f }) unlisted.ownsNone unlisted.counted).complete .aborted
    all_goals exact unlisted.failChannel .localBus none
  rename_i d
  have copied : Unlisted (s.setChan c { s.chan c with copy := some d }) c :=
    unlisted.setChan (x := { s.chan c with copy := some d }) unlisted.ownsNone unlisted.counted
  split
  · exact copied.complete .aborted
  · exact copied.complete .faulted
  split
  · have state (st : ChanState) (timer : Timer) : Unlisted ((s.setChan c { s.chan c with copy := some d }).modChan c
        fun ch => { ch with state := st, waitTimer := timer }) c := copied.setChan copied.ownsNone copied.counted
    unfold State.beginDescriptor
    split
    · have running := copied.setChan (x := { (s.setChan c { s.chan c with copy := some d }).chan c with state := .running })
        copied.ownsNone copied.counted
      exact tableKept_retestReady _ running.toTableBooks
    · exact tableBooks_setWait_some (state .waiting _).toTableBooks (congrArg Channel.state (State.chan_modChan_self _ c _)) _
  · exact copied.failChannel .badDescriptor none

/-- R167, R168: the channel whose record write has ended leaves COMPLETING, and the next record write is tested for. -/
theorem tableKept_endRecord (s : State) (c : Chan) (ok : Bool) : TableKept s (s.endRecord c ok) := by
  intro books
  unfold State.endRecord
  split
  · rename_i writes
    have ended (p : Word) : Unlisted { s with ring := { s.ring with inProgress := none, producer := p } } c := by
      have state : (s.chan c).state = .completing := books.records c (.inr writes)
      have notReady : c ∉ s.readyList := not_ready books (not_qualifies_of_state (by rw [state]; decide))
      exact
        { books with
          records := fun d hd => books.records d (.inl (hd.resolve_right nofun))
          recordsOnce := ⟨books.recordsOnce.1, nofun⟩
          ownsNone := books.atRest c (by rw [state]; decide) (by rw [state]; decide)
          notReady
          notMember := by_contra fun member => by rw [books.waits c member] at state; cases state
          noRecord := fun waits => books.recordsOnce.2 c waits writes
          notWriting := nofun }
    split
    · exact tableKept_testRecordWrite _ (ended _).leaveCompleting.toTableBooks
    · obtain ⟨f, fault⟩ := channelFault_frame (s.chan c) .ringWrite none
      have lost := (ended s.ring.producer).setChan (x := { (s.chan c) with
        fault := f, pending := none, recordDue := false, record := none, chainCancelled := false, state := .faulted })
        (ended s.ring.producer).ownsNone (ended s.ring.producer).counted
      refine tableKept_testRecordWrite _ ?_
      rw [State.loseRecord, State.modChan]
      change TableBooks (State.setChan _ c { ((s.chan c).channelFault .ringWrite none).outOfCompleting with state := .faulted })
      rw [fault]
      exact lost.toTableBooks
  · exact books

theorem tableKept_descriptorFetchEnd (o : AccessEnd) (h : execDescriptorFetchEnd o s = .next t) : TableKept s t := by
  cases h
  split
  · exact .refl s
  split
  · exact tableKept_finishAccess fun u => tableKept_endFetch u _ _
  all_goals exact .refl s

theorem tableKept_loadEnd (o : AccessEnd) (h : execLoadEnd o s = .next t) : TableKept s t := by
  cases h
  split
  · exact .refl s
  split
  · refine tableKept_finishAccess fun u => ?_
    split
    · split
      · exact tableKept_endLoad ‹_› o
      · exact .refl u
    · exact .refl u
  all_goals exact .refl s

theorem tableKept_storeEnd (o : AccessEnd) (h : execStoreEnd o s = .next t) : TableKept s t := by
  cases h
  split
  · exact .refl s
  split
  · refine tableKept_finishAccess fun u => ?_
    split
    · split
      · exact tableKept_retire u _ _
      · exact .refl u
    · exact .refl u
  all_goals exact .refl s

theorem tableKept_inboundAccessEnd (o : AccessEnd) (h : execInboundAccessEnd o s = .next t) : TableKept s t := by
  cases h
  split
  · exact .refl s
  split
  case h_1 | h_2 => exact tableKept_finishAccess fun u => (sameTable_endSlotAccess u _ _ _).kept
  all_goals exact .refl s

theorem tableKept_recordWriteEnd (o : AccessEnd) (h : execRecordWriteEnd o s = .next t) : TableKept s t := by
  cases h
  split
  · exact .refl s
  split
  · exact tableKept_finishAccess fun u => tableKept_endRecord u _ _
  all_goals exact .refl s

/-! ## Every command -/

theorem SameTable.ite {c : Prop} [Decidable c] (yes : SameTable s t) (no : SameTable s u) :
    SameTable s (if c then t else u) := iteInduction (fun _ => yes) fun _ => no

theorem TableKept.ite {c : Prop} [Decidable c] (yes : TableKept s t) (no : TableKept s u) :
    TableKept s (if c then t else u) := iteInduction (fun _ => yes) fun _ => no

theorem tableKept_exec (c : Instr) (h : Machine.exec c s = .next t) : TableKept s t := by
  cases c with
  | powerOn cut => cases h; exact fun _ => tableBooks_of_reset rfl rfl rfl rfl rfl
  | resetPinAssert cut => cases h; exact fun _ => tableBooks_of_reset rfl rfl rfl rfl rfl
  | resetEnd => cases h; split; exacts [SameTable.kept .of_blocks, .refl s, .refl s]
  | configurationReadEnd answers => cases h; exact (SameTable.ite .of_blocks (.refl s)).kept
  | join op =>
      cases h
      exact tableKept_takeCommand fun u => tableKept_inStateOnly
        (by split; exacts [(sameTable_enterJoining u _).kept, .refl u])
  | leave op =>
      cases h
      exact tableKept_takeCommand fun u => tableKept_inStateOnly
        (by split; exacts [(sameTable_enterLeaving u).settle, .refl u])
  | clearIsolation op =>
      cases h
      exact tableKept_takeCommand fun u => tableKept_inStateOnly
        (by split; exacts [SameTable.kept .of_blocks, .refl u])
  | softReset op => cases h; exact tableKept_takeCommand fun u => tableKept_softReset u
  | setWindow op => exact tableKept_setWindow op h
  | setRing op =>
      cases h
      exact tableKept_takeCommand fun u => tableKept_inStateOnly
        (by split; exacts [SameTable.kept .of_blocks, .refl u])
  | start op => exact tableKept_start op h
  | abort op =>
      cases h
      exact tableKept_takeCommand fun u => by split; exacts [.refl u, tableKept_abortChannel u _]
  | clear op => exact tableKept_clear op h
  | advanceMark op =>
      cases h
      exact tableKept_takeCommand fun u => tableKept_inStateOnly (sameTable_advanceMark u).settle
  | readChannel op => exact tableKept_readChannel op h
  | readPeer op => cases h; exact tableKept_takeCommand fun u => by split; exacts [.refl u, SameTable.kept .of_blocks]
  | readWindow op => cases h; exact tableKept_takeCommand fun u => by split; exacts [.refl u, SameTable.kept .of_blocks]
  | readWatch op => cases h; exact tableKept_takeCommand fun u => by split; exacts [.refl u, SameTable.kept .of_blocks]
  | readPeerChanges op => cases h; exact tableKept_takeCommand fun u => SameTable.kept .of_blocks
  | unknownCommand code op => cases h; exact TableKept.ite (.refl s) (tableKept_takeCommand fun u => .refl u)
  | consumerWrite v => exact tableKept_consumerWrite v h
  | attnWrite v => cases h; exact (SameTable.ite .of_blocks (.refl s)).kept
  | attnenWrite v => cases h; exact (SameTable.ite .of_blocks (.refl s)).kept
  | registerWrite a v => exact tableKept_registerWrite a v h
  | activityBegin => cases h; exact (SameTable.ite .of_blocks (.refl s)).kept
  | badCheckActivity => cases h; exact (SameTable.ite .of_blocks (.refl s)).kept
  | malformedMessage source => cases h; exact tableKept_hearFrom fun _ u => .refl u
  | joinHeard source inc mark =>
      cases h
      exact tableKept_hearFrom fun p u => (tableKept_presenceUpdate u p inc _ true).trans (sameTable_queuePresence _).kept
  | presenceHeard source inc mark =>
      cases h; exact tableKept_hearFrom fun p u => tableKept_presenceUpdate u p inc _ false
  | leaveHeard source inc mark => cases h; exact tableKept_hearFrom fun p u => tableKept_leaveUpdate u p inc mark
  | askHeard source inc wanted =>
      cases h
      exact tableKept_hearFrom fun p u => (tableKept_presenceUpdate u p inc none false).trans (sameTable_takeAsk _ p _).kept
  | grantHeard source inc credits echo =>
      cases h
      exact tableKept_hearFrom fun p u =>
        (tableKept_presenceUpdate u p inc none false).trans (sameTable_takeGrant _ p _ echo).kept
  | writeHeard source inc tag seq low window offset payload =>
      cases h
      exact tableKept_hearFrom fun p u => (tableKept_presenceUpdate u p inc none false).trans (sameTable_takeRequest _ _).kept
  | readHeard source inc tag seq low window offset length =>
      cases h
      exact tableKept_hearFrom fun p u => (tableKept_presenceUpdate u p inc none false).trans (sameTable_takeRequest _ _).kept
  | ackHeard source inc tag seq echo status =>
      cases h; exact tableKept_hearFrom fun p u => tableKept_deliverReply u p inc .write tag seq echo status []
  | dataHeard source inc tag seq echo status payload =>
      cases h; exact tableKept_hearFrom fun p u => tableKept_deliverReply u p inc .read tag seq echo status payload
  | granting => cases h; exact tableKept_ownRow fun _ h => (sameTable_granting h).kept
  | busSlotStart n => exact (sameTable_busSlotStart n h).kept
  | coldGuardExpiry n => exact (sameTable_coldGuardExpiry n h).kept
  | transmissionEnd => exact tableKept_transmissionEnd h
  | transmissionClash => exact tableKept_transmissionClash h
  | leaveQueued => cases h; exact tableKept_ownRow fun _ h => (sameTable_leaveQueued h).kept
  | joinListenTimerExpiry => cases h; exact TableKept.ite (SameTable.settle .of_blocks) (.refl s)
  | presenceTimerExpiry =>
      cases h; exact (SameTable.ite ((sameTable_queuePresence s).trans .of_blocks) (.refl s)).kept
  | silenceTimerExpiry p => cases h; exact TableKept.ite (tableKept_silenceUpdate s p).settle (.refl s)
  | askTimerExpiry p => exact tableKept_askTimerExpiry p h
  | replyTimerExpiry v => exact tableKept_replyTimerExpiry v h
  | waitTimerExpiry c => exact tableKept_waitTimerExpiry c h
  | asking p => cases h; exact tableKept_ownRow fun _ h => (sameTable_asking h).kept
  | creditHanding p => cases h; exact tableKept_ownRow fun _ h => (sameTable_creditHanding h).kept
  | entryAllocation => cases h; exact tableKept_ownRow fun _ h => tableKept_entryAllocation h
  | descriptorEnd c => cases h; exact tableKept_ownRow fun _ h => tableKept_descriptorEnd h
  | accessGrant => cases h; exact tableKept_ownRow fun _ h => (sameTable_accessGrant h).kept
  | descriptorFetchEnd o => exact tableKept_descriptorFetchEnd o h
  | loadEnd o => exact tableKept_loadEnd o h
  | storeEnd o => exact tableKept_storeEnd o h
  | inboundAccessEnd o => exact tableKept_inboundAccessEnd o h
  | recordWriteIssue => cases h; exact tableKept_ownRow fun _ h => tableKept_recordWriteIssue h
  | recordWriteEnd o => exact tableKept_recordWriteEnd o h
  | ownNumberHeard =>
      cases h; exact TableKept.ite (TableKept.ite (SameTable.kept .of_blocks) (tableKept_isolate s)) (.refl s)
  | sourceNOrHigherHeard source => cases h; exact (SameTable.ite .of_blocks (.refl s)).kept
  | overheardMessage dest source kind inc =>
      cases h
      exact TableKept.ite (.refl s) (tableKept_hearFrom fun p u => tableKept_presenceUpdate u p inc none false)

/-- Settles O46: the changes of entries and channels keep the table books, and through these every command does. -/
theorem everyStepKeepsTheTransactionTable : Obligations.EveryStepKeepsTheTransactionTable := by
  unfold Obligations.EveryStepKeepsTheTransactionTable
  intro s t books h
  unfold Machine.step at h
  split at h
  · cases h; exact books
  · exact tableKept_exec _ h (SameTable.kept (s := s) .of_blocks books)

end Sys2Proof.Channels
end

section
/-! SUPPORT. The host commands of a channel that end at once: START (R108), CLEAR (R123) and the pages of READ CHANNEL (R124,
R176, R177). -/
namespace Sys2Proof.Channels

open Sys2Proof Sys2Proof.Machine Sys2Proof.Safety

-- Each thread of the elaborator reserves 1 GB under the memory limit of the check.
set_option Elab.async false

variable {s : State} {op : Byte} {c : Chan}

/-! ## The channel a command names (R174, R175) -/

theorem chanOperand_above (h : 8 ≤ op.toNat) : chanOperand op = none := by
  rw [chanOperand, dif_neg (by omega)]

theorem chanOperand_eq (h : c.val = op.toNat) : chanOperand op = some c := by
  rw [chanOperand, dif_pos (by omega)]
  exact congrArg some (Fin.ext h.symm)

/-! ## START (R108) -/

/-- What START decides, test by test, about the channel that it names. -/
def startDecision (s : State) (c : Chan) : State × ResultCode :=
  if (s.chan c).state ≠ .idle then (s, .busy)
  else if s.station.state ≠ some .online then (s, .wrongState)
  else if s.param32 ≤ 0xFFFFFF ∧ s.param32 % 32 = 0 then ((s.beginFetch c s.param32).settle, .accepted)
  else (s, .badParameter)

theorem startDecision_busy (h : (s.chan c).state ≠ .idle) : startDecision s c = (s, .busy) := if_pos h

theorem startDecision_offline (idle : (s.chan c).state = .idle) (h : s.station.state ≠ some .online) :
    startDecision s c = (s, .wrongState) := by
  rw [startDecision, if_neg (not_not.2 idle), if_pos h]

theorem startDecision_badAddress (idle : (s.chan c).state = .idle) (online : s.station.state = some .online)
    (h : ¬ (s.param32 ≤ 0xFFFFFF ∧ s.param32 % 32 = 0)) : startDecision s c = (s, .badParameter) := by
  rw [startDecision, if_neg (not_not.2 idle), if_neg (not_not.2 online), if_neg h]

theorem startDecision_taken (idle : (s.chan c).state = .idle) (online : s.station.state = some .online)
    (h : s.param32 ≤ 0xFFFFFF ∧ s.param32 % 32 = 0) :
    startDecision s c = ((s.beginFetch c s.param32).settle, .accepted) := by
  rw [startDecision, if_neg (not_not.2 idle), if_neg (not_not.2 online), if_pos h]

theorem inState_configFault (h : s.station.state ≠ some .configFault) (code op : Byte) :
    ¬ (commanded s code op).inState .configFault = true :=
  mt of_decide_eq_true h

theorem exec_start_configFault (running : s.phase = .running) (fault : s.station.state = some .configFault) :
    exec (.start op) s = .next (answeredOnly s 0x07 op wrongState) := by
  have u : (commanded s Config.codeStart op).inState .configFault = true := decide_eq_true fault
  simp only [exec, execStart, State.takeCommand_running running, if_pos u]
  rfl

theorem exec_start_above (running : s.phase = .running) (noFault : s.station.state ≠ some .configFault)
    (h : 8 ≤ op.toNat) : exec (.start op) s = .next (answeredOnly s 0x07 op badParameter) := by
  simp only [exec, execStart, State.takeCommand_running running, if_neg (inState_configFault noFault _ op),
    chanOperand_above h]
  rfl

/-- Outside CONFIG-FAULT the channel named decides. -/
theorem exec_start_chan (running : s.phase = .running) (noFault : s.station.state ≠ some .configFault)
    (h : c.val = op.toNat) :
    let d := startDecision (commanded s Config.codeStart op) c
    exec (.start op) s = .next (d.1.answer Config.codeStart d.2) := by
  have size (n : Nat) : n < Config.localSize ↔ n ≤ 0xFFFFFF := by rw [Config.localSize]; omega
  simp only [exec, execStart, State.takeCommand_running running, if_neg (inState_configFault noFault _ op),
    chanOperand_eq h]
  simp only [startDecision, State.inState, Bool.not_eq_true', decide_eq_false_iff_not, Bool.and_eq_true, decide_eq_true_eq,
    size, ne_eq]

/-- Settles O13: the tests of the station and of the channel number, then those of the channel named, in their order. -/
theorem startTestsInOrder : Obligations.StartTestsInOrder := by
  unfold Obligations.StartTestsInOrder
  intro op s running addr u
  refine ⟨exec_start_configFault running, exec_start_above running, fun c h noFault => ?_⟩
  have decides {d : State × ResultCode} (hd : startDecision (commanded s Config.codeStart op) c = d) :
      exec (.start op) s = .next (d.1.answer Config.codeStart d.2) := hd ▸ exec_start_chan running noFault h
  exact ⟨fun notIdle => decides (startDecision_busy notIdle), fun idle offline => decides (startDecision_offline idle offline),
    fun idle online bad => decides (startDecision_badAddress idle online bad),
    fun idle online small aligned => decides (startDecision_taken idle online ⟨small, aligned⟩)⟩

/-! ## CLEAR (R123, R180) -/

theorem faultCause_iff (s : State) : s.faultCause = true ↔ ∃ c, (s.chan c).state = .faulted := by
  simp [State.faultCause, Descriptors.mem_allChans]

theorem exec_clear_above (running : s.phase = .running) (h : 8 ≤ op.toNat) :
    exec (.clear op) s = .next (answeredOnly s 0x09 op badParameter) := by
  simp only [exec, execClear, State.takeCommand_running running, chanOperand_above h]
  rfl

theorem exec_clear_faulted (running : s.phase = .running) (h : c.val = op.toNat) (faulted : (s.chan c).state = .faulted) :
    exec (.clear op) s = .next (resulted ((commanded s 0x09 op).setChan c
      { s.chan c with state := .idle, fault := none, flag := .none, addr := none, copy := none }) 0x09 accepted) := by
  have u : ((commanded s Config.codeClear op).chan c).state = .faulted := faulted
  simp only [exec, execClear, State.takeCommand_running running, chanOperand_eq h, if_pos u]
  rfl

theorem exec_clear_other (running : s.phase = .running) (h : c.val = op.toNat) (other : (s.chan c).state ≠ .faulted) :
    exec (.clear op) s = .next (answeredOnly s 0x09 op noEffect) := by
  have u : ((commanded s Config.codeClear op).chan c).state ≠ .faulted := other
  simp only [exec, execClear, State.takeCommand_running running, chanOperand_eq h, if_neg u]
  rfl

/-- Settles O16. -/
theorem clearReleasesAFaultedChannel : Obligations.ClearReleasesAFaultedChannel := by
  unfold Obligations.ClearReleasesAFaultedChannel
  exact fun op s running => ⟨faultCause_iff s, exec_clear_above running, fun c h =>
    ⟨exec_clear_faulted running h, exec_clear_other running h⟩⟩

/-! ## READ CHANNEL (R124, R176, R177) -/

theorem exec_readChannel_above (running : s.phase = .running) (h : 8 ≤ op.toNat) :
    exec (.readChannel op) s = .next (answeredOnly s 0x10 op badParameter) := by
  simp only [exec, execReadChannel, State.takeCommand_running running, chanOperand_above h]
  rfl

theorem channelView_above {n : Nat} (h : 2 < n) : s.channelView c n = none := by
  match n, h with
  | n + 3, _ => rfl

theorem exec_readChannel_pageAbove (running : s.phase = .running) (h : c.val = op.toNat) (page : 2 < (s.param 0).toNat) :
    exec (.readChannel op) s = .next (answeredOnly s 0x10 op badParameter) := by
  have u : (commanded s Config.codeReadChannel op).channelView c ((commanded s Config.codeReadChannel op).param 0).toNat = none :=
    channelView_above page
  simp only [exec, execReadChannel, State.takeCommand_running running, chanOperand_eq h, u]
  rfl

theorem exec_readChannel (running : s.phase = .running) (h : c.val = op.toNat) {v : Vector Word 8}
    (view : s.channelView c (s.param 0).toNat = some v) :
    exec (.readChannel op) s = .next (HostViews.shows s 0x10 op v) := by
  have u : (commanded s Config.codeReadChannel op).channelView c ((commanded s Config.codeReadChannel op).param 0).toNat
      = some v := view
  simp only [exec, execReadChannel, State.takeCommand_running running, chanOperand_eq h, u]
  rfl

/-- The codes that the views of a channel show fit their fields. -/
theorem chanState_code_le (x : ChanState) : x.code ≤ 7 := by cases x <;> decide

theorem endingFlag_code_le (x : EndingFlag) : x.code ≤ 3 := by cases x <;> decide

theorem pendingStatus_code_le (x : Option PendingStatus) : (x.map PendingStatus.code).getD 0 ≤ 3 := by
  cases x with
  | none => exact Nat.zero_le 3
  | some status => cases status <;> decide

theorem faultCode_code_le (x : FaultCode) : x.code ≤ 255 := by cases x <;> decide

/-- A count shown in two view words. -/
theorem highWord_lowWord {n : Nat} (h : n < 4294967296) : (lowWord n).toNat + 65536 * (highWord n).toNat = n := by
  rw [lowWord, highWord, BitVec.toNat_ofNat, BitVec.toNat_ofNat]
  omega

/-- R177: word 0 of page 0. The pending status, the record due and the cancelled chain show in COMPLETING only. -/
theorem channelPage0_flags (owned : (s.chan c).owned ≤ 4) :
    let ch := s.chan c
    (s.channelPage0 c)[0].toNat = ch.state.code + 8 * ch.flag.code + 32 * bit (s.readyList.contains c)
      + 64 * bit (s.ring.waitList.contains c) + 128 * bit ch.waitTimer.isRunning
      + (if ch.state = .completing then 256 * bit ch.pending.isSome
          + 512 * ((ch.pending.map PendingStatus.code).getD 0) + 2048 * bit ch.recordDue
          + 4096 * bit ch.chainCancelled else 0) + 8192 * ch.owned := by
  have state := chanState_code_le (s.chan c).state
  have flag := endingFlag_code_le (s.chan c).flag
  have ready := HostViews.bit_le_one (s.readyList.contains c)
  have waits := HostViews.bit_le_one (s.ring.waitList.contains c)
  have timer := HostViews.bit_le_one (s.chan c).waitTimer.isRunning
  have pending := HostViews.bit_le_one (s.chan c).pending.isSome
  have status := pendingStatus_code_le (s.chan c).pending
  have due := HostViews.bit_le_one (s.chan c).recordDue
  have cancelled := HostViews.bit_le_one (s.chan c).chainCancelled
  by_cases completing : (s.chan c).state = .completing
  · simp only [State.channelPage0, completing, decide_true, Bool.true_and, if_true] at state ⊢
    exact HostViews.toNat_packWord (by omega)
  · simp only [State.channelPage0, completing, decide_false, Bool.false_and, Bool.false_eq_true, if_false,
      show bit false = 0 from rfl]
    exact HostViews.toNat_packWord (by omega)

/-- R177: word 0 of page 1. -/
theorem channelPage1_flags (s : State) (c : Chan) :
    (s.channelPage1 c)[0].toNat = bit (s.chan c).addr.isSome + 2 * bit (s.chan c).copy.isSome
      + 256 * descByte ((s.chan c).copy.getD []) 0 := by
  have addr := HostViews.bit_le_one (s.chan c).addr.isSome
  have copy := HostViews.bit_le_one (s.chan c).copy.isSome
  have kind := Descriptors.descByte_lt ((s.chan c).copy.getD []) 0
  exact HostViews.toNat_packWord (by omega)

/-- R177: word 2 of page 1, the high byte of the address below the flags of the copy. -/
theorem channelPage1_word2 (addr : (s.chan c).addr.getD 0 ≤ 0xFFFFFF) :
    (s.channelPage1 c)[2].toNat = (s.chan c).addr.getD 0 / 65536 + 256 * descByte ((s.chan c).copy.getD []) 1 := by
  have flags := Descriptors.descByte_lt ((s.chan c).copy.getD []) 1
  exact HostViews.toNat_packWord (by omega)

theorem channelPage1_addr (addr : (s.chan c).addr.getD 0 ≤ 0xFFFFFF) :
    (s.channelPage1 c)[1].toNat + 65536 * ((s.channelPage1 c)[2].extractLsb' 0 8).toNat = (s.chan c).addr.getD 0 := by
  have low : (s.channelPage1 c)[1].toNat = (s.chan c).addr.getD 0 % 65536 := BitVec.toNat_ofNat ..
  rw [low, BitVec.extractLsb'_toNat, channelPage1_word2 addr, Nat.shiftRight_zero]
  omega

theorem channelPage1_descFlags (addr : (s.chan c).addr.getD 0 ≤ 0xFFFFFF) :
    (s.channelPage1 c)[2].extractLsb' 8 8 = ((s.chan c).copy.getD []).getD 1 0#8 := by
  have flags := Descriptors.descByte_lt ((s.chan c).copy.getD []) 1
  refine BitVec.eq_of_toNat_eq ?_
  rw [BitVec.extractLsb'_toNat, channelPage1_word2 addr, Nat.shiftRight_eq_div_pow]
  change _ = descByte ((s.chan c).copy.getD []) 1
  omega

/-- R96, R177: the pieces of a PUT or GET, shown while its copy is present. -/
theorem shownPieces_eq (ch : Channel) :
    let d := ch.copy.getD []
    ch.shownPieces = if ch.copy.isSome = true ∧ (d.getD 0 0#8).toNat ≤ 1 then
      ((d.getD 14 0#8).toNat + 256 * (d.getD 15 0#8).toNat) * ((d.getD 13 0#8).toNat + 1) else 0 := by
  cases copy : ch.copy with
  | none => simp [Channel.shownPieces, copy]
  | some d =>
    simp only [Channel.shownPieces, copy, Option.isSome_some, true_and, Option.getD_some]
    rfl

theorem shownPieces_lt (ch : Channel) : ch.shownPieces < 4294967296 := by
  rw [shownPieces_eq]
  generalize ch.copy.getD [] = d
  have rowsLow := (d.getD 14 0#8).isLt
  have rowsHigh := (d.getD 15 0#8).isLt
  have perRow := (d.getD 13 0#8).isLt
  split
  · calc _ ≤ 65535 * 256 := Nat.mul_le_mul (by omega) (by omega)
      _ < 4294967296 := by decide
  · decide

/-- R177: page 2 of an empty fault record. -/
theorem channelPage2_empty (h : (s.chan c).fault = none) (i : Fin 8) : (s.channelPage2 c)[i] = 0#16 := by
  simp [State.channelPage2, h]

/-- R177: page 2 of a fault record within the ranges of its fields. -/
theorem channelPage2_record {f : FaultRecord} (h : (s.chan c).fault = some f) (further : f.further ≤ 255)
    (addr : f.addr ≤ 0xFFFFFF) (piece : f.piece.getD 0 ≤ 1048576) :
    let v := s.channelPage2 c
    v[0].toNat = 1 + 2 * bit f.piece.isSome + 4 * bit f.peer.isSome + 256 * f.code.code ∧
    v[1].toNat + 65536 * v[2].toNat = f.piece.getD 0 ∧
    v[3].toNat = (f.peer.map (·.val)).getD 0 + 256 * f.further ∧
    v[4].toNat + 65536 * v[5].toNat = f.addr ∧ v[6] = 0#16 ∧ v[7] = 0#16 := by
  have code := faultCode_code_le f.code
  have hasPiece := HostViews.bit_le_one f.piece.isSome
  have hasPeer := HostViews.bit_le_one f.peer.isSome
  have peer : (f.peer.map (·.val)).getD 0 ≤ 15 := by cases f.peer <;> simp; omega
  simp only [State.channelPage2, h]
  exact ⟨HostViews.toNat_packWord (by omega), highWord_lowWord (by omega), HostViews.toNat_packWord (by omega),
    HostViews.lowWord_packWord addr, rfl, rfl⟩

/-- Settles O20, page by page. -/
theorem readChannelShowsThePage : Obligations.ReadChannelShowsThePage := by
  unfold Obligations.ReadChannelShowsThePage
  intro op s running
  refine ⟨exec_readChannel_above running, fun c h => ?_⟩
  intro ch u shown
  have view {n : Nat} {v : Vector Word 8} (page : (s.param 0).toNat = n) (hv : s.channelView c n = some v) : shown v :=
    exec_readChannel running h (page ▸ hv)
  refine ⟨exec_readChannel_pageAbove running h, fun page => ⟨_, view page rfl, ?_⟩, fun page => ⟨_, view page rfl, ?_⟩,
    fun page => ⟨_, view page rfl, channelPage2_empty, fun f => channelPage2_record⟩⟩
  · have count {n : Nat} (small : n ≤ 1048576) : (lowWord n).toNat + 65536 * (highWord n).toNat = n :=
      highWord_lowWord (by omega)
    exact ⟨channelPage0_flags, count, count, count, rfl⟩
  · refine ⟨channelPage1_flags s c, channelPage1_addr, channelPage1_descFlags, rfl, ?_, rfl, rfl⟩
    exact (highWord_lowWord (shownPieces_lt ch)).trans (shownPieces_eq ch)

end Sys2Proof.Channels
end

section
/-! SUPPORT. Piece outcomes and the end of a descriptor (R104, R105, R114 to R116, R147), and what the ends of outbound accesses
report: fetches (R109, R110, R117), loads, stores and record writes (R120, R131, R141, R167, R168). -/
namespace Sys2Proof.Channels

open Sys2Proof Sys2Proof.Machine Sys2Proof.Safety

-- Each thread of the elaborator reserves 1 GB under the memory limit of the check.
set_option Elab.async false

variable {s u : State} {c : Chan} {ch : Channel} {v : Tag} {e : Entry} {cur : CurrentAccess} {outcome : AccessEnd}

/-! ## Outcomes (R105, R114, R147) -/

/-- R105: a further fault is counted up to 255. -/
theorem more_eq (f : FaultRecord) :
    f.more = { f with further := if f.further < 255 then f.further + 1 else 255 } := by
  have capped : min 255 (f.further + 1) = if f.further < 255 then f.further + 1 else 255 := by split <;> omega
  rw [FaultRecord.more, capped]

theorem peerClass_iff (code : FaultCode) : code.peerClass = true ↔
    code = .peerLost ∨ code = .peerRestarted ∨ code = .peerLeft ∨ code = .isolated := by
  cases code <;> decide

theorem stopsOn_iff (code : FaultCode) : ch.stopsOn code = true ↔
    (code = .peerLost ∨ code = .peerRestarted ∨ code = .peerLeft ∨ code = .isolated) ∨
      (ch.desc.getD 1 0#8).getLsbD 2 = true := by
  rw [Channel.stopsOn, Bool.or_eq_true, peerClass_iff]
  rfl

/-! ## The end of a descriptor (R116) -/

theorem ends_iff (ch : Channel) : ch.ends = true ↔
    (ch.state = .running ∨ ch.state = .draining) ∧ ch.owned = 0 ∧ (descPieces ch.desc ≤ ch.next ∨ ch.flag ≠ .none) := by
  simp only [Channel.ends, Bool.and_eq_true, Bool.or_eq_true, decide_eq_true_eq, and_assoc]
  simp only [ne_eq, or_comm]

theorem exec_descriptorEnd (ends : (s.chan c).ends = true) :
    exec (.descriptorEnd c) s = .next (s.complete c (s.chan c).endingStatus).settle := by
  rw [exec, execDescriptorEnd, State.ownRow, State.descriptorEnd, if_pos ends, Option.getD_some]

theorem exec_descriptorEnd_not (notEnds : ¬ (s.chan c).ends = true) :
    exec (.descriptorEnd c) s = .next s.settle := by
  rw [exec, execDescriptorEnd, State.ownRow, State.descriptorEnd, if_neg notEnds, Option.getD_none]

/-- Settles O45: the three outcomes of a retirement, and the descriptor's end. -/
theorem outcomesAreCountedAndEndDescriptors : Obligations.OutcomesAreCountedAndEndDescriptors := by
  unfold Obligations.OutcomesAreCountedAndEndDescriptors
  refine ⟨fun s t e entry => ?_, fun s c => ?_⟩
  · intro ch freed
    refine ⟨by rw [retire_eq entry, applyOutcome_done], by rw [retire_eq entry, applyOutcome_aborted], fun code => ?_⟩
    intro peerClass stops record
    rw [retire_eq entry, applyOutcome_failed]
    have recorded : pieceRecord (s.chan e.chan) code e.piece e.peer = record := by
      unfold pieceRecord record ch
      cases (s.chan e.chan).fault with
      | none => rfl
      | some f => exact more_eq f
    simp only [recorded, stopsOn_iff]
    rfl
  · intro ch ends status
    have status_eq : ch.endingStatus = status := by
      unfold Channel.endingStatus status
      cases ch.flag <;> rfl
    exact ⟨fun h => status_eq ▸ exec_descriptorEnd ((ends_iff ch).2 h), fun h => exec_descriptorEnd_not (mt (ends_iff ch).1 h)⟩

/-! ## The end of an access of the outbound side (R159, R162, R163) -/

theorem readData_error (h : endedOk outcome = false) (n : Nat) : readData n outcome = none := by
  cases outcome with
  | ok data => cases h
  | error cycle low high data => rfl

/-- As many bytes as were asked for are taken as they are. -/
theorem fitBytes_self {n : Nat} {data : List Byte} (h : data.length = n) : fitBytes n data = data := by
  refine List.ext_getElem (by rw [Inbound.fitBytes_length, h]) fun j left right => ?_
  have taken := Inbound.fitBytes_getElem? (h ▸ right) data
  rwa [List.getElem?_eq_getElem left, List.getD_eq_getElem _ _ right, Option.some.injEq] at taken

theorem readData_ok {n : Nat} {data : List Byte} (ok : outcome = .ok data) (h : data.length = n) :
    readData n outcome = some data := by
  rw [ok, readData, fitBytes_self h]

/-- A read access writes nothing. -/
theorem applyWrite_read {a : Access} (h : a.requester.isWrite = false) (outcome : AccessEnd) :
    s.applyWrite a outcome = s := by
  rw [State.applyWrite, h]
  rfl

theorem applyWrite_entry (s : State) (a : Access) (outcome : AccessEnd) (v : Tag) :
    (s.applyWrite a outcome).entry v = s.entry v := by
  rw [State.applyWrite]
  split <;> rfl

/-! ## The end of a fetch (R109, R110, R117) -/

theorem exec_descriptorFetchEnd (current : s.port.current = some cur) (fetch : cur.access.requester = .fetch c)
    (outcome : AccessEnd) : exec (.descriptorFetchEnd outcome) s =
      .next (s.finishAccess cur outcome fun s => s.endFetch c (readData 32 outcome)) := by
  rw [exec, execDescriptorFetchEnd, current]
  simp only [fetch]

theorem endFetch_other (h : (s.chan c).state ≠ .fetching) (data : Option (List Byte)) : s.endFetch c data = s := if_pos h

/-- R109: a fetch that fails. -/
theorem endFetch_error (fetching : (s.chan c).state = .fetching) (h : (s.chan c).flag ≠ .aborting) :
    s.endFetch c none = s.failChannel c .localBus none := by
  simp only [State.endFetch, fetching, ne_eq, not_true, if_false]
  cases flag : (s.chan c).flag with
  | none => rfl
  | stopping => rfl
  | aborting => exact absurd flag h

theorem endFetch_error_aborting (fetching : (s.chan c).state = .fetching) (h : (s.chan c).flag = .aborting) :
    s.endFetch c none = (s.setChan c ((s.chan c).channelFault .localBus none)).complete c .aborted := by
  simp only [State.endFetch, fetching, ne_eq, not_true, if_false, h]

/-- R109, R110: a fetch that brings a copy, by the ending flag. -/
theorem endFetch_copy (fetching : (s.chan c).state = .fetching) (d : List Byte) :
    let u := s.setChan c { s.chan c with copy := some d }
    ((s.chan c).flag = .aborting → s.endFetch c (some d) = u.complete c .aborted) ∧
    ((s.chan c).flag = .stopping → s.endFetch c (some d) = u.complete c .faulted) ∧
    ((s.chan c).flag = .none → descValid s.own s.stationCount d = true → s.endFetch c (some d) = u.beginDescriptor c d) ∧
    ((s.chan c).flag = .none → ¬ descValid s.own s.stationCount d = true →
      s.endFetch c (some d) = u.failChannel c .badDescriptor none) := by
  simp only [State.endFetch, fetching, ne_eq, not_true, if_false]
  refine ⟨fun flag => ?_, fun flag => ?_, fun flag valid => ?_, fun flag invalid => ?_⟩
  · rw [flag]
  · rw [flag]
  · rw [flag]
    exact if_pos valid
  · rw [flag]
    exact if_neg invalid

/-- R109: a PUT or GET begins. -/
theorem beginDescriptor_transfer {d : List Byte} (kind : descKind d ≤ 1) :
    s.beginDescriptor c d = (s.setChan c { s.chan c with state := .running }).retestReady := if_pos kind

/-- R117: a WAIT begins. -/
theorem beginDescriptor_wait {d : List Byte} (kind : descKind d = 2) :
    s.beginDescriptor c d = (s.setChan c { s.chan c with
      state := .waiting, waitTimer := if descLimit d = 0 then .stopped else .running (descLimit d) }).setWait c
        (some { mask := descMask d, target := descTarget d }) := if_neg (by omega)

/-- Settles O48: by whether the result reaches the channel, the outcome, the ending flag, and the descriptor. -/
theorem descriptorFetchEndDecides : Obligations.DescriptorFetchEndDecides := by
  unfold Obligations.DescriptorFetchEndDecides
  intro s cur c outcome current fetch ch ends
  have notWrite : s.applyWrite cur.access outcome = s := applyWrite_read (by rw [fetch]; rfl) outcome
  have reported {t : State} (h : cur.dropped = false) (ht : s.endFetch c (readData 32 outcome) = t) : ends t := by
    unfold ends
    rw [exec_descriptorFetchEnd current fetch, Inbound.finishAccess_reported h, notWrite, ht]
  refine ⟨fun unheard => ?_, fun kept fetching => ⟨fun failed => ?_, fun data ok length => ?_⟩⟩
  · cases dropped : cur.dropped with
    | true =>
      unfold ends
      rw [exec_descriptorFetchEnd current fetch, Inbound.finishAccess_dropped dropped, notWrite]
    | false => exact reported dropped (endFetch_other (unheard.resolve_left (by simp [dropped])) _)
  · rw [readData_error failed] at reported
    exact ⟨fun flag => reported kept (endFetch_error fetching flag),
      fun flag => reported kept (endFetch_error_aborting fetching flag)⟩
  · rw [readData_ok ok length] at reported
    intro u wait valid
    obtain ⟨aborting, stopping, begins, fails⟩ := endFetch_copy fetching data
    have copied : u.chan c = { ch with copy := some data } := State.chan_setChan_self s c _
    refine ⟨fun flag => reported kept (aborting flag), fun flag => reported kept (stopping flag),
      fun flag invalid => reported kept ?_, fun flag isValid kind => reported kept ?_,
      fun flag isValid kind => reported kept ?_⟩
    · rw [fails flag invalid, State.failChannel, State.modChan, copied]
    · rw [begins flag isValid, beginDescriptor_transfer kind, copied]
    · rw [begins flag isValid, beginDescriptor_wait kind, copied, descLimit, Descriptors.descField_two]
      rfl

/-! ## The end of a load (R131) -/

theorem exec_loadEnd_dropped (current : s.port.current = some cur) (load : cur.access.requester = .load v)
    (dropped : cur.dropped = true) (outcome : AccessEnd) :
    exec (.loadEnd outcome) s = .next (portIdle (s.applyWrite cur.access outcome)).settle := by
  simp only [exec, execLoadEnd, current, load, Inbound.finishAccess_dropped dropped]

theorem exec_loadEnd_reported (current : s.port.current = some cur) (load : cur.access.requester = .load v)
    (kept : cur.dropped = false) (entry : s.entry v = some e) (loading : e.state = .loading) (outcome : AccessEnd) :
    exec (.loadEnd outcome) s = .next (portIdle ((s.applyWrite cur.access outcome).endLoad v e outcome)).settle := by
  simp only [exec, execLoadEnd, current, load, Inbound.finishAccess_reported kept, applyWrite_entry, entry,
    if_pos loading]

/-- An entry that cleanup or isolation has marked retires for that reason. -/
theorem endLoad_marked {why : FaultCode} (marked : e.retireReason = some why) (outcome : AccessEnd) :
    s.endLoad v e outcome = s.retire v (e.failedOrAborted why) := by
  rw [State.endLoad, marked]

theorem endLoad_error (unmarked : e.retireReason = none) (failed : endedOk outcome = false) :
    s.endLoad v e outcome = s.retire v (.failed .localBus) := by
  rw [State.endLoad, unmarked, readData_error failed]

theorem endLoad_aborted (unmarked : e.retireReason = none) (ok : endedOk outcome = true) (aborting : e.aborting = true) :
    s.endLoad v e outcome = s.retire v .aborted := by
  cases outcome with
  | ok data => simp only [State.endLoad, unmarked, readData, aborting, if_true]
  | error cycle low high data => cases ok

theorem endLoad_taken {data : List Byte} (unmarked : e.retireReason = none) (going : e.aborting = false)
    (ok : outcome = .ok data) (length : data.length = e.length) :
    s.endLoad v e outcome = (s.setEntry v (some { e with
      state := .waitingCredit, replyTimer := .stopped, buffer := data })).modPeer e.peer
        fun q => { q with waitList := q.waitList ++ [v] } := by
  have taken : s.endLoad v e outcome = (s.setEntry v (some { e with buffer := data })).joinWaitList v e.peer := by
    simp only [State.endLoad, unmarked, readData_ok ok length, going, Bool.false_eq_true, if_false]
  rw [taken, Credits.joinWaitList_eq (State.entry_setEntry_self s v _), Credits.setEntry_setEntry]

/-! ## The end of a store (R141) -/

theorem exec_storeEnd_dropped (current : s.port.current = some cur) (store : cur.access.requester = .store v)
    (dropped : cur.dropped = true) (outcome : AccessEnd) :
    exec (.storeEnd outcome) s = .next (portIdle (s.applyWrite cur.access outcome)).settle := by
  simp only [exec, execStoreEnd, current, store, Inbound.finishAccess_dropped dropped]

theorem exec_storeEnd_reported (current : s.port.current = some cur) (store : cur.access.requester = .store v)
    (kept : cur.dropped = false) (entry : s.entry v = some e) (storing : e.state = .storing) (outcome : AccessEnd) :
    exec (.storeEnd outcome) s = .next (portIdle ((s.applyWrite cur.access outcome).retire v
      (if endedOk outcome then .done else .failed .localBus))).settle := by
  simp only [exec, execStoreEnd, current, store, Inbound.finishAccess_reported kept, applyWrite_entry, entry,
    if_pos storing]

/-! ## The end of a record write (R120, R167, R168) -/

theorem exec_recordWriteEnd (current : s.port.current = some cur) (record : cur.access.requester = .record c)
    (outcome : AccessEnd) : exec (.recordWriteEnd outcome) s =
      .next (s.finishAccess cur outcome fun s => s.endRecord c (endedOk outcome)) := by
  rw [exec, execRecordWriteEnd, current]
  simp only [record]

theorem endRecord_written (inProgress : s.ring.inProgress = some c) : s.endRecord c true =
    (State.leaveCompleting { s with ring := { s.ring with inProgress := none, producer := s.ring.producer + 1#16 } }
      c).testRecordWrite := by
  rw [State.endRecord, if_pos inProgress]
  rfl

/-- R120: the record is lost, and with it the mark advance and the chain. -/
theorem endRecord_lost (inProgress : s.ring.inProgress = some c) : s.endRecord c false =
    (State.setChan { s with ring := { s.ring with inProgress := none } } c
      { (s.chan c).channelFault .ringWrite none with
        state := .faulted, pending := none, recordDue := false, record := none, chainCancelled := false }).testRecordWrite := by
  rw [State.endRecord, if_pos inProgress]
  rfl

theorem applyWrite_chan (s : State) (a : Access) (outcome : AccessEnd) (c : Chan) :
    (s.applyWrite a outcome).chan c = s.chan c := by
  rw [State.applyWrite]
  split <;> rfl

theorem applyWrite_ring (s : State) (a : Access) (outcome : AccessEnd) : (s.applyWrite a outcome).ring = s.ring := by
  rw [State.applyWrite]
  split <;> rfl

/-- Settles O49: loads by retire reason, outcome and aborting mark; stores and record writes by their outcome. -/
theorem outboundAccessEndsAreReported : Obligations.OutboundAccessEndsAreReported := by
  unfold Obligations.OutboundAccessEndsAreReported
  intro s cur outcome current u ok
  refine ⟨fun t e load => ?_, fun t e store => ?_, fun c record => ?_⟩
  · refine ⟨fun dropped => exec_loadEnd_dropped current load dropped outcome, fun kept entry loading => ?_⟩
    have reported {w : State} (h : u.endLoad t e outcome = w) : exec (.loadEnd outcome) s = .next (portIdle w).settle :=
      h ▸ exec_loadEnd_reported current load kept entry loading outcome
    refine ⟨fun why marked going => reported ?_, fun why marked aborting => reported ?_,
      fun unmarked failed => reported (endLoad_error unmarked (Bool.eq_false_iff.2 failed)),
      fun unmarked ended aborting => reported (endLoad_aborted unmarked ended aborting),
      fun data unmarked going taken length => reported (endLoad_taken unmarked going taken length)⟩
    · rw [endLoad_marked marked, Entry.failedOrAborted, going]
      rfl
    · rw [endLoad_marked marked, Entry.failedOrAborted, aborting]
      rfl
  · refine ⟨fun dropped => exec_storeEnd_dropped current store dropped outcome, fun kept entry storing => ?_⟩
    have reported := exec_storeEnd_reported current store kept entry storing outcome
    refine ⟨fun ended => ?_, fun failed => ?_⟩
    · rwa [if_pos ended] at reported
    · rwa [if_neg failed] at reported
  · intro ends v lost
    have chan : u.chan c = s.chan c := applyWrite_chan s _ _ c
    have ring : u.ring = s.ring := applyWrite_ring s _ _
    refine ⟨fun dropped => ?_, fun kept inProgress => ?_⟩
    · unfold ends
      rw [exec_recordWriteEnd current record, Inbound.finishAccess_dropped dropped]
    · have reported {w : State} (h : u.endRecord c (endedOk outcome) = w) : ends w := by
        unfold ends
        rw [exec_recordWriteEnd current record, Inbound.finishAccess_reported kept, h]
      have writing : u.ring.inProgress = some c := ring ▸ inProgress
      refine ⟨fun ended => reported ?_, fun failed => reported ?_⟩
      · have written := endRecord_written writing
        rw [congrArg RingUnit.producer ring] at written
        rw [show endedOk outcome = true from ended]
        exact written
      · rw [Bool.eq_false_iff.2 failed, endRecord_lost writing, chan]

end Sys2Proof.Channels
end

section
/-! SUPPORT. ABORT (R121, R122, R142): what it decides by the channel's state and ending flag, the marking of the channel's
entries, and what becomes of each entry. -/
namespace Sys2Proof.Channels

open Sys2Proof Sys2Proof.Machine Sys2Proof.Safety

-- Each thread of the elaborator reserves 1 GB under the memory limit of the check.
set_option Elab.async false

variable {s t : State} {op : Byte} {c : Chan} {v w : Tag} {p : Station} {e : Entry}

/-! ## What ABORT decides (R121, R122) -/

theorem exec_abort_above (running : s.phase = .running) (h : 8 ≤ op.toNat) :
    exec (.abort op) s = .next (answeredOnly s 0x08 op badParameter) := by
  simp only [exec, execAbort, State.takeCommand_running running, chanOperand_above h]
  rfl

/-- The channel named decides. -/
theorem exec_abort_chan (running : s.phase = .running) (h : c.val = op.toNat) {u : State} {r : ResultCode}
    (decided : (commanded s 0x08 op).abortChannel c = (u, r)) :
    exec (.abort op) s = .next (resulted u 0x08 (BitVec.ofNat 8 r.code)) := by
  have decision : (commanded s Config.codeAbort op).abortChannel c = (u, r) := decided
  simp only [exec, execAbort, State.takeCommand_running running, chanOperand_eq h, decision]
  rfl

theorem abortChannel_atRest (h : (s.chan c).state = .idle ∨ (s.chan c).state = .faulted) :
    s.abortChannel c = (s, .noEffect) := by
  rcases h with state | state <;> simp only [State.abortChannel, state]

theorem abortChannel_flagged
    (state : (s.chan c).state = .fetching ∨ (s.chan c).state = .running ∨ (s.chan c).state = .draining)
    (flag : (s.chan c).flag ≠ .none) : s.abortChannel c = (s, .noEffect) := by
  cases hf : (s.chan c).flag with
  | none => exact absurd hf flag
  | stopping | aborting => rcases state with state | state | state <;> simp only [State.abortChannel, state, hf]

theorem abortChannel_fetching (state : (s.chan c).state = .fetching) (flag : (s.chan c).flag = .none) :
    s.abortChannel c = (s.setChan c { s.chan c with flag := .aborting }, .accepted) := by
  simp only [State.abortChannel, state, flag]

/-- R121: the channel drains, and no longer qualifies. -/
theorem abortRunning_eq (state : (s.chan c).state = .running ∨ (s.chan c).state = .draining) :
    s.abortRunning c =
      (State.abortEntries (s.setChan c { s.chan c with flag := .aborting, state := .draining }).retestReady c).settle := by
  rcases state with state | state <;>
    simp only [State.abortRunning, State.modChan, state, if_true, reduceCtorEq, if_false]

theorem abortChannel_busy (state : (s.chan c).state = .running ∨ (s.chan c).state = .draining)
    (flag : (s.chan c).flag = .none) : s.abortChannel c =
      ((State.abortEntries (s.setChan c { s.chan c with flag := .aborting, state := .draining }).retestReady c).settle,
        .accepted) := by
  have begun := abortRunning_eq state
  rcases state with state | state <;> simp only [State.abortChannel, state, flag, begun]

theorem abortChannel_waiting (state : (s.chan c).state = .waiting) :
    s.abortChannel c =
      ((((s.setWait c none).setChan c { s.chan c with waitTimer := .stopped }).complete c .aborted).settle, .accepted) := by
  simp only [State.abortChannel, state]

/-- R122: the channel in COMPLETING goes on to its next descriptor. -/
def ChainFollows (ch : Channel) : Prop :=
  (ch.pending = some .done ∨ ch.pending = some .partly) ∧ (ch.desc.getD 1 0#8).getLsbD 1 = true ∧ ch.chainCancelled = false

theorem chainFollows_iff (ch : Channel) :
    ((ch.pending = some .done || ch.pending = some .partly) && descChain ch.desc && !ch.chainCancelled) = true ↔
      ChainFollows ch := by
  simp only [Bool.and_eq_true, Bool.or_eq_true, decide_eq_true_eq, Bool.not_eq_true', and_assoc]
  rfl

theorem abortChannel_chained (state : (s.chan c).state = .completing) (chain : ChainFollows (s.chan c)) :
    s.abortChannel c = (s.setChan c { s.chan c with chainCancelled := true }, .accepted) := by
  simp only [State.abortChannel, state, State.abortCompleting, if_pos ((chainFollows_iff _).2 chain)]

theorem abortChannel_unchained (state : (s.chan c).state = .completing) (chain : ¬ ChainFollows (s.chan c)) :
    s.abortChannel c = (s, .noEffect) := by
  simp only [State.abortChannel, state, State.abortCompleting, if_neg (mt (chainFollows_iff _).1 chain)]

/-! ## The marking of the channel's entries (R142) -/

/-- An entry once the entries of channel `c` are marked. -/
def marked (c : Chan) (e : Entry) : Entry := if e.chan = c then { e with aborting := true } else e

/-- Tag `v` stays in the credit wait list of `p` when the entries of channel `c` are marked. -/
def staysListed (s : State) (c : Chan) (p : Station) (v : Tag) : Bool :=
  match s.entry v with
  | some e => !(e.chan = c && e.state = .waitingCredit && e.peer = p)
  | none => true

theorem marked_fields (c : Chan) (e : Entry) :
    (marked c e).chan = e.chan ∧ (marked c e).state = e.state ∧ (marked c e).peer = e.peer := by
  unfold marked
  split <;> exact ⟨rfl, rfl, rfl⟩

theorem marked_marked (c : Chan) (e : Entry) : marked c (marked c e) = marked c e := by
  by_cases own : e.chan = c <;> simp [marked, own]

theorem markEntry_free (free : s.entry v = none) : PeerBus.markEntry c s v = s := by
  rw [PeerBus.markEntry, free]

theorem markEntry_eq (entry : s.entry v = some e) : PeerBus.markEntry c s v =
    if e.chan = c then
      if e.state = .waitingCredit then (s.setEntry v (some (marked c e))).leaveWaitList v e.peer
      else s.setEntry v (some (marked c e))
    else s := by
  rw [PeerBus.markEntry, entry]
  by_cases own : e.chan = c
  · have mark : marked c e = { e with aborting := true } := if_pos own
    rw [mark]
  · simp only [if_neg own]

theorem markEntry_entry (s : State) (c : Chan) (v w : Tag) :
    (PeerBus.markEntry c s v).entry w = if v = w then (s.entry w).map (marked c) else s.entry w := by
  cases entry : s.entry v with
  | none =>
    rw [markEntry_free entry]
    split
    · subst_vars; rw [entry]; rfl
    · rfl
  | some e =>
    rw [markEntry_eq entry]
    by_cases own : e.chan = c
    · rw [if_pos own]
      have set : (s.setEntry v (some (marked c e))).entry w = if v = w then (s.entry w).map (marked c) else s.entry w := by
        rw [State.entry_setEntry]
        split
        · subst_vars; rw [entry]; rfl
        · rfl
      split <;> exact set
    · rw [if_neg own]
      split
      · subst_vars; rw [entry, Option.map_some, marked, if_neg own]
      · rfl

theorem staysListed_markEntry (s : State) (c : Chan) (v : Tag) (p : Station) (w : Tag) :
    staysListed (PeerBus.markEntry c s v) c p w = staysListed s c p w := by
  unfold staysListed
  rw [markEntry_entry]
  by_cases same : v = w
  · rw [if_pos same]
    cases s.entry w with
    | none => rfl
    | some e =>
      obtain ⟨chan, state, peer⟩ := marked_fields c e
      simp only [Option.map_some, chan, state, peer]
  · rw [if_neg same]

theorem markEntry_waitList (s : State) (c : Chan) (v : Tag) (p : Station) :
    ((PeerBus.markEntry c s v).peer p).waitList =
      (s.peer p).waitList.filter fun w => w ≠ v ∨ staysListed s c p w = true := by
  have all (h : staysListed s c p v = true) :
      (s.peer p).waitList = (s.peer p).waitList.filter fun w => w ≠ v ∨ staysListed s c p w = true := by
    refine (List.filter_eq_self.2 fun w _ => decide_eq_true ?_).symm
    by_cases same : w = v
    · exact .inr (same ▸ h)
    · exact .inl same
  cases entry : s.entry v with
  | none =>
    rw [markEntry_free entry]
    exact all (by rw [staysListed, entry])
  | some e =>
    have stays : staysListed s c p v = !(e.chan = c && e.state = .waitingCredit && e.peer = p) := by rw [staysListed, entry]
    rw [markEntry_eq entry]
    by_cases own : e.chan = c
    · rw [if_pos own]
      by_cases waits : e.state = .waitingCredit
      · rw [if_pos waits, State.leaveWaitList, State.peer_modPeer]
        by_cases there : e.peer = p
        · rw [if_pos there]
          have leaves : staysListed s c p v = false := by simp [stays, own, waits, there]
          rw [there]
          refine List.filter_congr fun w _ => ?_
          by_cases same : w = v <;> simp [same, leaves]
        · rw [if_neg there]
          exact all (by simp [stays, there])
      · rw [if_neg waits]
        exact all (by simp [stays, waits])
    · rw [if_neg own]
      exact all (by simp [stays, own])

theorem foldl_markEntry_entry (l : List Tag) (s : State) (c : Chan) (w : Tag) :
    (l.foldl (PeerBus.markEntry c) s).entry w = if w ∈ l then (s.entry w).map (marked c) else s.entry w := by
  induction l generalizing s with
  | nil => rfl
  | cons v l ih =>
    rw [List.foldl_cons, ih, markEntry_entry]
    by_cases same : v = w
    · subst same
      cases s.entry v <;> simp [marked_marked]
    · simp [same, Ne.symm same]

theorem foldl_markEntry_waitList (l : List Tag) (s : State) (c : Chan) (p : Station) :
    ((l.foldl (PeerBus.markEntry c) s).peer p).waitList =
      (s.peer p).waitList.filter fun w => w ∉ l ∨ staysListed s c p w = true := by
  induction l generalizing s with
  | nil => exact (List.filter_eq_self.2 fun w _ => by simp).symm
  | cons v l ih =>
    rw [List.foldl_cons, ih, markEntry_waitList, List.filter_filter]
    refine List.filter_congr fun w _ => ?_
    rw [staysListed_markEntry]
    by_cases stays : staysListed s c p w = true
    · simp [stays]
    · simp [stays, Bool.and_comm]

/-- Every entry of the channel carries the aborting mark. -/
theorem markAborting_entry (s : State) (c : Chan) (w : Tag) :
    (s.markAborting c).entry w = (s.entry w).map (marked c) := by
  rw [PeerBus.markAborting_eq, foldl_markEntry_entry, if_pos (PeerBus.mem_allTags w)]

/-- The waiting entries of the channel have left their credit wait lists. -/
theorem markAborting_waitList (s : State) (c : Chan) (p : Station) :
    ((s.markAborting c).peer p).waitList = (s.peer p).waitList.filter (staysListed s c p) := by
  rw [PeerBus.markAborting_eq, foldl_markEntry_waitList]
  refine List.filter_congr fun w _ => ?_
  simp [PeerBus.mem_allTags]

/-! ## The abort of one entry (R142) -/

theorem abortEntry_free (free : s.entry v = none) : s.abortEntry c v = s := by
  rw [State.abortEntry, free]

theorem abortEntry_other (entry : s.entry v = some e) (h : e.chan ≠ c ∨ e.aborting = false) : s.abortEntry c v = s := by
  simp only [State.abortEntry, entry]
  refine if_neg fun own => ?_
  simp only [Bool.and_eq_true, decide_eq_true_eq] at own
  rcases h with other | unmarked
  · exact other own.1
  · exact absurd own.2 (by simp [unmarked])

/-- An entry of the channel that carries the aborting mark, by its state. -/
theorem abortEntry_own (entry : s.entry v = some e) (own : e.chan = c) (aborting : e.aborting = true) :
    (e.state = .waitingCredit → s.abortEntry c v = s.retire v .aborted) ∧
    (e.state = .queued → e.inTransmission = false →
      s.abortEntry c v = ((s.withdrawRequest v).returnCredit e.peer).retire v .aborted) ∧
    (e.state = .loading ∨ e.state = .queued ∧ e.inTransmission = true ∨ e.state = .sent ∨ e.state = .storing →
      s.abortEntry c v = s) := by
  simp only [State.abortEntry, entry, own, aborting, decide_true, Bool.and_self, if_true]
  refine ⟨fun state => ?_, fun state waits => ?_, ?_⟩
  · rw [state]
  · simp only [state, waits, Bool.false_eq_true, if_false]
  · rintro (state | ⟨state, sending⟩ | state | state)
    · rw [state]
    · simp only [state, sending, if_true]
    · rw [state]
    · rw [state]

/-- Settles O14: the decision by state and flag, then the marking, then each entry. -/
theorem abortFollowsTheChannel : Obligations.AbortFollowsTheChannel := by
  unfold Obligations.AbortFollowsTheChannel
  refine ⟨fun op s running => ?_, fun s c => ?_⟩
  · intro u
    refine ⟨exec_abort_above running, fun c h => ?_⟩
    intro ch
    have decides {v : State} {r : ResultCode} (decided : u.abortChannel c = (v, r)) :
        exec (.abort op) s = .next (resulted v 0x08 (BitVec.ofNat 8 r.code)) := exec_abort_chan running h decided
    exact ⟨fun state => decides (abortChannel_atRest state), fun state flag => decides (abortChannel_flagged state flag),
      fun state flag => decides (abortChannel_fetching state flag), fun state flag => decides (abortChannel_busy state flag),
      fun state => decides (abortChannel_waiting state),
      fun state => ⟨fun chain => decides (abortChannel_chained state chain),
        fun chain => decides (abortChannel_unchained state chain)⟩⟩
  · intro aside
    refine ⟨rfl, markAborting_entry s c, markAborting_waitList s c, fun v => ⟨abortEntry_free, fun e entry => ?_⟩⟩
    exact ⟨abortEntry_other entry, fun own aborting => abortEntry_own entry own aborting⟩

end Sys2Proof.Channels
end

section
/-! SUPPORT. What an abort leaves of its channel's entries (R121, R142): the channel drains, so it takes no new entry; the own
steps only take entries away from it and hand no credit to one that is aside. -/
namespace Sys2Proof.Channels

open Sys2Proof Sys2Proof.Machine Sys2Proof.Safety

-- Each thread of the elaborator reserves 1 GB under the memory limit of the check.
set_option Elab.async false

variable {s t u : State} {c d : Chan} {v : Tag} {e : Entry}

/-! ## A channel that does not run -/

/-- Channel `c` is not RUNNING and stands not in the ready list. -/
structure Stopped (c : Chan) (s : State) : Prop where
  state : (s.chan c).state ≠ .running
  notReady : c ∉ s.readyList

theorem setChan_state (s : State) (c : Chan) {x : Channel} (h : x.state ≠ .running) :
    ((s.setChan c x).chan c).state ≠ .running := by
  rwa [State.chan_setChan_self]

theorem chainOrIdle_state (s : State) (c : Chan) (chains : Bool) (addr : Nat) :
    ((s.chainOrIdle c chains addr).chan c).state ≠ .running := by
  unfold State.chainOrIdle
  split
  · exact setChan_state s c nofun
  · exact setChan_state s c nofun

/-- R119: no channel leaves COMPLETING for RUNNING. -/
theorem leaveCompleting_state (s : State) (c : Chan) : ((s.leaveCompleting c).chan c).state ≠ .running := by
  simp only [State.leaveCompleting]
  split
  · exact chainOrIdle_state _ c _ _
  · exact chainOrIdle_state _ c _ _
  all_goals exact setChan_state _ c nofun

theorem complete_state (s : State) (c : Chan) (status : PendingStatus) : ((s.complete c status).chan c).state ≠ .running := by
  cases due : (s.chan c).recordIsDue status with
  | true =>
    rw [Descriptors.complete_due due, State.testRecordWrite_chan]
    exact setChan_state s c nofun
  | false =>
    rw [Descriptors.complete_not_due due]
    exact leaveCompleting_state _ c

theorem Stopped.complete (h : Stopped c s) (d : Chan) (status : PendingStatus) : Stopped c (s.complete d status) where
  state := by
    by_cases own : c = d
    · exact own ▸ complete_state s c status
    · rw [(onlyChannel_complete s d status).other c own]
      exact h.state
  notReady := by rw [State.complete_readyList]; exact h.notReady

theorem Stopped.setChan (h : Stopped c s) (d : Chan) {x : Channel} (state : x.state ≠ .running ∨ x.state = (s.chan d).state) :
    Stopped c (s.setChan d x) where
  state := by
    rw [State.chan_setChan]
    split
    · subst_vars
      exact state.elim id fun same => same ▸ h.state
    · exact h.state
  notReady := h.notReady

/-- R111: the test for the ready list passes over a channel that does not run. -/
theorem stopped_retestReady (state : (s.chan c).state ≠ .running) : Stopped c s.retestReady where
  state := by rwa [State.retestReady_chan]
  notReady listed := by
    have qualifies : s.qualifies c = true := by
      rcases List.mem_append.1 listed with kept | new
      · exact (List.mem_filter.1 kept).2
      · exact ((Bool.and_eq_true _ _).mp (List.mem_filter.1 new).2).1
    rw [not_qualifies_of_state state] at qualifies
    cases qualifies

theorem Stopped.takeReport (h : Stopped c s) (d : Chan) (r : WaitReport) : Stopped c (s.takeReport d r) := by
  have left : Stopped c (s.setWait d none) := ⟨h.state, h.notReady⟩
  cases r with
  | satisfied => exact (left.setChan d (x := { s.chan d with waitTimer := .stopped }) (.inr rfl)).complete d .done
  | lost p =>
    obtain ⟨f, fault⟩ := channelFault_frame (s.chan d) .peerLost (some p)
    refine Stopped.complete (left.setChan d (.inr ?_)) d .faulted
    change (Channel.channelFault (s.chan d) .peerLost (some p)).state = (s.chan d).state
    rw [fault]
  | still => exact h

theorem Stopped.leaveWaitSet (h : Stopped c s) (l : List (Chan × WaitReport)) : Stopped c (s.leaveWaitSet l) :=
  ⟨by rw [State.leaveWaitSet_chan]; exact h.state, by rw [State.leaveWaitSet_readyList]; exact h.notReady⟩

theorem Stopped.deliverReports (fuel : Nat) (l : List (Chan × WaitReport)) (h : Stopped c s) :
    Stopped c (State.deliverReports fuel l s) := by
  induction fuel generalizing s l with
  | zero => exact h
  | succ n ih =>
    cases l with
    | nil => exact h
    | cons r rest =>
      rw [State.deliverReports_cons]
      exact ih _ ((h.takeReport r.1 r.2).leaveWaitSet _)

theorem Stopped.retire (h : Stopped c s) (v : Tag) (o : PieceOutcome) : Stopped c (s.retire v o) := by
  cases entry : s.entry v with
  | none => rwa [retire_free entry]
  | some e =>
    rw [retire_eq entry]
    refine stopped_retestReady (Stopped.setChan (s := s.setEntry v none) ⟨h.state, h.notReady⟩ e.chan ?_).state
    rcases (oneLess_applyOutcome (s.chan e.chan) o e.piece e.peer).state with same | draining
    · exact .inr same
    · exact .inl (draining ▸ by decide)

/-! ## The entries of the channel only leave -/

/-- From `s` to `t` channel `c` gets no entry, and none of its entries changes or joins a credit wait list. -/
structure Remains (c : Chan) (s t : State) : Prop where
  entry : ∀ v e, t.entry v = some e → e.chan = c → s.entry v = some e
  listed : ∀ v e p, t.entry v = some e → e.chan = c → v ∈ (t.peer p).waitList → v ∈ (s.peer p).waitList

theorem Remains.refl (c : Chan) (s : State) : Remains c s s := ⟨fun _ _ h _ => h, fun _ _ _ _ _ h => h⟩

theorem Remains.trans (h : Remains c s t) (h' : Remains c t u) : Remains c s u where
  entry v e hu own := h.entry v e (h'.entry v e hu own) own
  listed v e p hu own listed := h.listed v e p (h'.entry v e hu own) own (h'.listed v e p hu own listed)

/-- A change of other blocks than the entries and the peers. -/
theorem Remains.of_blocks (entries : t.entries = s.entries := by rfl) (peers : t.peers = s.peers := by rfl) :
    Remains c s t where
  entry v e h _ := by rwa [State.entry, entries] at h
  listed v e p _ _ h := by rwa [State.peer, peers] at h

theorem remains_waitLists (entries : t.entries = s.entries)
    (waitList : ∀ p v, v ∈ (t.peer p).waitList → v ∈ (s.peer p).waitList) : Remains c s t where
  entry v e h _ := by rwa [State.entry, entries] at h
  listed v e p _ _ := waitList p v

theorem remains_retire (s : State) (c : Chan) (v : Tag) (o : PieceOutcome) : Remains c s (s.retire v o) where
  entry w e h _ := by
    cases entry : s.entry v with
    | none => rwa [retire_free entry] at h
    | some f =>
      rw [retire_eq entry, State.retestReady_entry] at h
      change (s.setEntry v none).entry w = some e at h
      rw [State.entry_setEntry] at h
      split at h
      · cases h
      · exact h
  listed w e p _ _ h := by rwa [State.retire_peer] at h

theorem remains_leaveWaitList (s : State) (c : Chan) (v : Tag) (p : Station) : Remains c s (s.leaveWaitList v p) := by
  refine remains_waitLists rfl fun q w h => ?_
  rw [State.leaveWaitList, State.peer_modPeer] at h
  split at h
  · subst_vars
    exact List.mem_of_mem_filter h
  · exact h

/-! ## An abort under way -/

/-- Channel `c` is being aborted: it does not run, its entries carry the aborting mark, and none of them stands in the credit
wait list of its peer (R121, R142). -/
structure Aborting (c : Chan) (s : State) : Prop extends Stopped c s where
  mark : ∀ v e, s.entry v = some e → e.chan = c → e.aborting = true
  aside : ∀ v e, s.entry v = some e → e.chan = c → v ∉ (s.peer e.peer).waitList ∨ e.state ≠ .waitingCredit

/-- What the abort leaves of an entry of the channel (R142). -/
def RunsOn (c : Chan) (s : State) (v : Tag) : Prop :=
  ∀ e, s.entry v = some e → e.chan = c → e.state ≠ .waitingCredit ∧ (e.state = .queued → e.inTransmission = true)

theorem Aborting.of_remains (h : Aborting c s) (stopped : Stopped c t) (remains : Remains c s t) : Aborting c t where
  toStopped := stopped
  mark v e entry own := h.mark v e (remains.entry v e entry own) own
  aside v e entry own := (h.aside v e (remains.entry v e entry own) own).imp_left
    (mt (remains.listed v e e.peer entry own))

theorem RunsOn.of_remains (h : RunsOn c s v) (remains : Remains c s t) : RunsOn c t v :=
  fun e entry own => h e (remains.entry v e entry own) own

/-! ## The own steps -/

/-- R54: the credit goes to an entry of another channel. -/
theorem remains_creditHanding {p : Station} (h : Aborting c s) (step : s.creditHanding p = some t) : Remains c s t := by
  obtain ⟨u, rest, f, seq, next, list, -, entry, waits, peer, -, rfl⟩ := State.creditHanding_spec step
  have other : f.chan ≠ c := fun own => by
    have listed : u ∈ (s.peer f.peer).waitList := by rw [peer, list]; exact List.mem_cons_self
    exact (h.aside u f entry own).elim (absurd listed) fun notWaiting => notWaiting waits
  refine ⟨fun v e he own => ?_, fun v e q _ _ listed => ?_⟩
  · change (State.setEntry _ u _).entry v = some e at he
    rw [State.entry_setEntry] at he
    split at he
    · cases he
      exact absurd own other
    · exact he
  · change v ∈ ((s.setPeer p _).peer q).waitList at listed
    rw [State.peer_setPeer] at listed
    split at listed
    · subst_vars
      rw [list]
      exact List.mem_cons_of_mem u listed
    · exact listed

theorem issue_entry (s : State) (u : Tag) (d : Chan) (v : Tag) : (s.issue u d).entry v =
    if u = v then some ((s.chan d).nextEntry d) else s.entry v := by
  have given : (s.issue u d).entry v = (s.setEntry u (some ((s.chan d).nextEntry d))).entry v := by
    by_cases put : descKind (s.chan d).desc = 0
    · rw [Descriptors.issue_load put, State.retestReady_entry]
      rfl
    · rw [Descriptors.issue_wait put, State.retestReady_entry]
      rfl
  rw [given, State.entry_setEntry]

theorem issue_chan_of_ne (s : State) (u : Tag) (other : c ≠ d) : (s.issue u d).chan c = s.chan c := by
  have set (x : Channel) : ((s.setEntry u (some ((s.chan d).nextEntry d))).setChan d x).chan c = s.chan c :=
    State.chan_setChan_of_ne _ other.symm x
  rcases PeerBus.issue_cases s u d with issued | issued
  · rw [issued, State.retestReady_chan]
    exact set _
  · rw [issued, State.retestReady_chan]
    exact set _

/-- R129: the entry goes to another channel, one of the ready list. -/
theorem aborting_entryAllocation (h : Aborting c s) (step : s.entryAllocation = some t) :
    Stopped c t ∧ Remains c s t := by
  obtain ⟨d, rest, u, ready, -, -, rfl⟩ := State.entryAllocation_spec step
  have other : c ≠ d := fun same => h.notReady (by rw [ready, same]; exact List.mem_cons_self)
  have halted : ((State.issue { s with readyList := rest } u d).chan c).state ≠ .running := by
    rw [issue_chan_of_ne _ u other]
    exact h.state
  have notIssued {v : Tag} {e : Entry} (he : (State.issue { s with readyList := rest } u d).entry v = some e)
      (own : e.chan = c) : u ≠ v ∧ s.entry v = some e := by
    rw [issue_entry] at he
    split at he
    · cases he
      exact absurd own.symm other
    · exact ⟨‹_›, he⟩
  refine ⟨?_, fun v e he own => (notIssued he own).2, fun v e p he own listed =>
    PeerBus.issue_waitList_of_ne (s := { s with readyList := rest }) (notIssued he own).1.symm listed⟩
  obtain ⟨w, issued, -⟩ := issue_same { s with readyList := rest } u d
  rw [issued] at halted ⊢
  exact stopped_retestReady (by rwa [State.retestReady_chan] at halted)

theorem stopped_of_same (h : Stopped c s) (k : SameTable s t) : Stopped c t :=
  ⟨by rw [k.chan]; exact h.state, k.readyList ▸ h.notReady⟩

theorem aborting_ownStep (h : Aborting c s) (step : s.ownStep = some t) : Stopped c t ∧ Remains c s t := by
  have stopped := h.toStopped
  rcases State.ownStep_cases step with ⟨v, h'⟩ | h' | ⟨d, h'⟩ | h' | ⟨p, h'⟩ | ⟨p, h'⟩ | h' | h' | h' | h'
  · obtain ⟨e, reason, -, -, -, rfl⟩ := State.absentRetire_spec h'
    exact ⟨Stopped.retire (s := s.leaveWaitList v e.peer) ⟨stopped.state, stopped.notReady⟩ v _,
      (remains_leaveWaitList s c v e.peer).trans (remains_retire _ c v _)⟩
  · obtain ⟨-, rfl⟩ := State.judgeWaits_spec h'
    exact ⟨(stopped.leaveWaitSet _).deliverReports 8 _, .of_blocks (by simp) (by simp)⟩
  · obtain ⟨-, rfl⟩ := State.descriptorEnd_spec h'
    exact ⟨stopped.complete d _, .of_blocks (by simp) (by simp)⟩
  · obtain ⟨d, rest, r, -, -, -, -, rfl⟩ := State.recordWriteIssue_spec h'
    exact ⟨⟨stopped.state, stopped.notReady⟩, .of_blocks⟩
  · exact ⟨stopped_of_same stopped (sameTable_creditHanding h'), remains_creditHanding h h'⟩
  · refine ⟨stopped_of_same stopped (sameTable_asking h'), ?_⟩
    obtain ⟨-, -, -, rfl⟩ := State.asking_spec h'
    refine remains_waitLists rfl fun q w listed => ?_
    rw [PeerBus.ask_eq] at listed
    change w ∈ ((s.setPeer p { s.peer p with asked := true, askTimer := .running s.replyTimeout }).peer q).waitList at listed
    rw [State.peer_setPeer] at listed
    split at listed
    · subst_vars
      exact listed
    · exact listed
  · exact aborting_entryAllocation h h'
  · refine ⟨stopped_of_same stopped (sameTable_granting h'), ?_⟩
    obtain ⟨a, rest, -, -, -, g, -, rfl⟩ := State.granting_spec h'
    exact .of_blocks
  · refine ⟨stopped_of_same stopped (sameTable_leaveQueued h'), ?_⟩
    obtain ⟨-, -, -, -, rfl⟩ := State.leaveQueued_spec h'
    exact .of_blocks
  · refine ⟨stopped_of_same stopped (sameTable_accessGrant h'), ?_⟩
    obtain ⟨-, ⟨a, rest, -, -, rfl⟩ | ⟨b, rest, -, -, rfl⟩⟩ := State.accessGrant_spec h'
    · exact .of_blocks
    · exact .of_blocks (by simp) (by simp)

/-- The part's own steps let an abort stand and give nothing to its channel. -/
theorem aborting_settle (h : Aborting c s) : Aborting c s.settle ∧ Remains c s s.settle := by
  refine State.settle_induction (P := fun t => Aborting c t ∧ Remains c s t) ?_ ⟨h, .refl c s⟩
  rintro t u ⟨aborting, remains⟩ step
  obtain ⟨stopped, less⟩ := aborting_ownStep aborting step
  exact ⟨aborting.of_remains stopped less, remains.trans less⟩

/-! ## The abort of the entries (R142) -/

theorem aborting_markAborting (h : Stopped c s) : Aborting c (s.markAborting c) where
  toStopped := stopped_of_same h (sameTable_markAborting s c)
  mark v e entry own := by
    rw [markAborting_entry] at entry
    obtain ⟨f, -, rfl⟩ := Option.map_eq_some_iff.1 entry
    obtain ⟨chan, -, -⟩ := marked_fields c f
    rw [marked, if_pos (chan ▸ own)]
  aside v e entry own := by
    rw [markAborting_entry] at entry
    obtain ⟨f, before, rfl⟩ := Option.map_eq_some_iff.1 entry
    obtain ⟨chan, state, peer⟩ := marked_fields c f
    rw [markAborting_waitList, peer, state]
    by_cases waits : f.state = .waitingCredit
    · refine .inl fun listed => ?_
      have stays := (List.mem_filter.1 listed).2
      simp [staysListed, before, waits, chan ▸ own] at stays
    · exact .inr waits

/-- The abort of one entry takes it away or lets it run on. -/
theorem aborting_abortEntry (h : Aborting c s) (v : Tag) :
    Stopped c (s.abortEntry c v) ∧ Remains c s (s.abortEntry c v) ∧ RunsOn c (s.abortEntry c v) v := by
  have gone (w : State) (o : PieceOutcome) : RunsOn c (w.retire v o) v := fun e entry _ => by
    cases free : w.entry v with
    | none => rw [retire_free free, free] at entry; cases entry
    | some f =>
      rw [retire_eq free, State.retestReady_entry] at entry
      cases (State.entry_setEntry_self w v none).symm.trans entry
  have stays (same : s.abortEntry c v = s) (runsOn : RunsOn c s v) :
      Stopped c (s.abortEntry c v) ∧ Remains c s (s.abortEntry c v) ∧ RunsOn c (s.abortEntry c v) v := by
    rw [same]
    exact ⟨h.toStopped, .refl c s, runsOn⟩
  cases entry : s.entry v with
  | none => exact stays (abortEntry_free entry) fun e he => by rw [entry] at he; cases he
  | some e =>
    have runsOn_of (runs : e.chan = c → e.state ≠ .waitingCredit ∧ (e.state = .queued → e.inTransmission = true)) :
        RunsOn c s v := fun f he own => by
      rw [entry] at he
      cases he
      exact runs own
    by_cases own : e.chan = c
    · obtain ⟨waiting, queued, runs⟩ := abortEntry_own entry own (h.mark v e entry own)
      cases state : e.state with
      | waitingCredit =>
        rw [waiting state]
        exact ⟨h.toStopped.retire v _, remains_retire s c v _, gone s _⟩
      | queued =>
        cases sending : e.inTransmission with
        | false =>
          rw [queued state sending]
          have back : Remains c s ((s.withdrawRequest v).returnCredit e.peer) := by
            refine remains_waitLists rfl fun q w listed => ?_
            rw [State.returnCredit, State.peer_modPeer] at listed
            split at listed
            · subst_vars
              exact listed
            · exact listed
          have stopped : Stopped c ((s.withdrawRequest v).returnCredit e.peer) := ⟨h.state, h.notReady⟩
          exact ⟨stopped.retire v _, back.trans (remains_retire _ c v _), gone _ _⟩
        | true => exact stays (runs (.inr (.inl ⟨state, sending⟩))) (runsOn_of fun _ => ⟨by simp [state], fun _ => sending⟩)
      | loading => exact stays (runs (.inl state)) (runsOn_of fun _ => by simp [state])
      | sent => exact stays (runs (.inr (.inr (.inl state)))) (runsOn_of fun _ => by simp [state])
      | storing => exact stays (runs (.inr (.inr (.inr state)))) (runsOn_of fun _ => by simp [state])
    · exact stays (abortEntry_other entry (.inl own)) (runsOn_of fun same => absurd same own)

theorem aborting_foldl (l : List Tag) (h : Aborting c s) :
    let t := l.foldl (fun s v => (s.abortEntry c v).settle) s
    Aborting c t ∧ ∀ v, v ∈ l ∨ RunsOn c s v → RunsOn c t v := by
  induction l generalizing s with
  | nil => exact ⟨h, fun v hv => hv.elim (absurd · List.not_mem_nil) id⟩
  | cons w l ih =>
    obtain ⟨stopped, remains, runsOn⟩ := aborting_abortEntry h w
    obtain ⟨settled, less⟩ := aborting_settle (h.of_remains stopped remains)
    obtain ⟨aborting, all⟩ := ih settled
    refine ⟨aborting, fun v hv => all v ?_⟩
    rcases hv with member | before
    · rcases List.mem_cons.1 member with rfl | later
      · exact .inr (runsOn.of_remains less)
      · exact .inl later
    · exact .inr ((before.of_remains remains).of_remains less)

/-- R121, R142: the abort of a channel's entries, once the part has taken its own steps. -/
theorem abortTaken_abortEntries (h : Stopped c s) : AbortTaken (s.abortEntries c).settle c := by
  obtain ⟨aborting, runsOn⟩ := aborting_foldl allTags (aborting_markAborting h)
  obtain ⟨settled, remains⟩ := aborting_settle aborting
  intro v e entry own
  have runs := (runsOn v (.inl (PeerBus.mem_allTags v))).of_remains remains
  exact ⟨settled.mark v e entry own, runs e entry own⟩

/-- The answer changes no entry. -/
theorem abortTaken_resulted (h : AbortTaken s c) (code r : Byte) : AbortTaken (resulted s code r) c := h

/-- Settles O15: once begun the abort leaves the channel stopped, so that its entries only leave. -/
theorem abortLeavesNoWaitingEntry : Obligations.AbortLeavesNoWaitingEntry := by
  unfold Obligations.AbortLeavesNoWaitingEntry
  intro op s t c running h state flag taken
  have decided := exec_abort_chan running h (abortChannel_busy (s := commanded s 0x08 op) state flag)
  have begun : Stopped c (State.retestReady ((commanded s 0x08 op).setChan c
      { (commanded s 0x08 op).chan c with flag := .aborting, state := .draining })) :=
    stopped_retestReady (setChan_state _ c nofun)
  have answered := Host.Outcome.next.inj (decided.symm.trans taken)
  rw [← answered]
  exact abortTaken_resulted (abortTaken_abortEntries begun) 0x08 _

end Sys2Proof.Channels
end

section
/-! SUPPORT. The evaluation of the wait set (R153 to R156), its reports and their effects, and the wait timer (R117). -/
namespace Sys2Proof.Channels

open Sys2Proof Sys2Proof.Machine Sys2Proof.Safety

-- Each thread of the elaborator reserves 1 GB under the memory limit of the check.
set_option Elab.async false

variable {s t u : State} {c d : Chan} {p : Station} {m : WaitMember} {ch : Channel}

/-! ## The evaluation (R155 cases 2 to 4) -/

/-- The first member of a rising list of all the numbers that passes a test is the least number that passes it. -/
theorem find?_eq_some_iff_least {n : Nat} {l : List (Fin n)} (sorted : l.Pairwise (· < ·)) (all : ∀ i, i ∈ l)
    {f : Fin n → Bool} {i : Fin n} : l.find? f = some i ↔ f i = true ∧ ∀ j < i, f j = false := by
  constructor
  · intro found
    obtain ⟨passes, before, after, rfl, fails⟩ := List.find?_eq_some_iff_append.1 found
    refine ⟨passes, fun j less => ?_⟩
    obtain ⟨-, higher, -⟩ := List.pairwise_append.1 sorted
    rcases List.mem_append.1 (all j) with first | last
    · simpa using fails j first
    · rcases List.mem_cons.1 last with rfl | last
      · exact absurd less (lt_irrefl j)
      · exact absurd ((List.pairwise_cons.1 higher).1 j last) (lt_asymm less)
  · exact fun ⟨passes, least⟩ => Credits.find?_eq_some_of_least sorted (all i) passes least

/-- R155 case 2: a masked peer is ABSENT. -/
def MaskedAbsent (s : State) (m : WaitMember) (p : Station) : Prop :=
  m.mask.getLsbD p.val = true ∧ p.val ≠ s.own ∧ ∃ reason, (s.peer p).state = .absent reason

/-- R155 case 3: a station has reached the target. -/
def Reached (s : State) (m : WaitMember) (p : Station) : Prop :=
  (p.val = s.own ∧ (s.marks.own - m.target).toNat < 32768) ∨
  (p.val ≠ s.own ∧ (s.peer p).state = .present ∧
    ∃ mark, (s.peer p).mark = some mark ∧ (mark - m.target).toNat < 32768)

theorem maskedAbsent_iff : (inMask m.mask p && s.peerAbsent p) = true ↔ MaskedAbsent s m p := by
  rw [State.peerAbsent, Bool.and_eq_true, Bool.and_eq_true, decide_eq_true_eq, MaskedAbsent]
  refine and_congr_right fun _ => and_congr_right fun _ => ?_
  cases (s.peer p).state <;> simp

theorem reached_iff : s.stationReached m.target p = true ↔ Reached s m p := by
  unfold State.stationReached Reached
  by_cases own : p.val = s.own
  · rw [if_pos own, markReached, decide_eq_true_eq]
    exact ⟨fun h => .inl ⟨own, h⟩, fun h => h.elim (·.2) fun other => absurd own other.1⟩
  · rw [if_neg own]
    cases (s.peer p).state with
    | present =>
      cases (s.peer p).mark with
      | none => simp [own]
      | some mark => simp [own, markReached]
    | unknown => simp [own]
    | absent reason => simp [own]

theorem evaluate_lost_iff : s.evaluate m = .lost p ↔ MaskedAbsent s m p ∧ ∀ q < p, ¬ MaskedAbsent s m q := by
  have least : (allStations.find? fun p => inMask m.mask p && s.peerAbsent p) = some p ↔
      MaskedAbsent s m p ∧ ∀ q < p, ¬ MaskedAbsent s m q := by
    rw [find?_eq_some_iff_least (by decide) Credits.mem_allStations, maskedAbsent_iff]
    simp only [← maskedAbsent_iff, Bool.not_eq_true]
  rw [← least, State.evaluate]
  cases (allStations.find? fun p => inMask m.mask p && s.peerAbsent p) with
  | none =>
    dsimp only
    split <;> simp
  | some q => simp

theorem evaluate_satisfied_iff : s.evaluate m = .satisfied ↔
    (∀ p, ¬ MaskedAbsent s m p) ∧ ∀ p : Station, m.mask.getLsbD p.val = true → Reached s m p := by
  have noneAbsent : (allStations.find? fun p => inMask m.mask p && s.peerAbsent p) = none ↔ ∀ p, ¬ MaskedAbsent s m p := by
    simp only [List.find?_eq_none, Credits.mem_allStations, forall_const, maskedAbsent_iff]
  have allReached : (allStations.all fun p => !inMask m.mask p || s.stationReached m.target p) = true ↔
      ∀ p : Station, m.mask.getLsbD p.val = true → Reached s m p := by
    simp only [List.all_eq_true, Credits.mem_allStations, forall_const, Bool.or_eq_true, Bool.not_eq_true', reached_iff,
      inMask, Bool.eq_false_iff, ne_eq, imp_iff_not_or]
  rw [← noneAbsent, ← allReached, State.evaluate]
  cases (allStations.find? fun p => inMask m.mask p && s.peerAbsent p) with
  | none =>
    dsimp only
    split <;> simp [*]
  | some q => simp

/-! ## The effects of a report (R105, R117) -/

/-- The fault record after a channel fault that does not take the place of the first (R105, R106). -/
def raisedRecord (ch : Channel) (code : FaultCode) (peer : Option Station) : FaultRecord :=
  match ch.fault with
  | none => { code, piece := none, peer, addr := ch.addr.getD 0, further := 0 }
  | some f => { f with further := if f.further < 255 then f.further + 1 else 255 }

theorem channelFault_eq {code : FaultCode} (h : code.takesPlace = false) (peer : Option Station) :
    ch.channelFault code peer = { ch with fault := some (raisedRecord ch code peer) } := by
  unfold Channel.channelFault raisedRecord
  cases ch.fault with
  | none => rfl
  | some f => simp only [h, Bool.false_eq_true, if_false, more_eq]

/-- Channel `c` leaves the wait set, its wait timer stopped, and ends with `status`. -/
def waitEnded (s : State) (c : Chan) (fault : Option FaultRecord) (status : PendingStatus) : State :=
  ((s.setWait c none).setChan c { s.chan c with fault, waitTimer := .stopped }).complete c status

theorem takeReport_satisfied (s : State) (c : Chan) : s.takeReport c .satisfied = waitEnded s c (s.chan c).fault .done := rfl

theorem failWaiting_eq {code : FaultCode} (h : code.takesPlace = false) (s : State) (c : Chan) (peer : Option Station) :
    (s.setWait c none).failChannel c code peer = waitEnded s c (some (raisedRecord (s.chan c) code peer)) .faulted := by
  rw [State.failChannel, State.modChan, State.setWait_chan, channelFault_eq h, waitEnded]

theorem takeReport_lost (s : State) (c : Chan) (p : Station) :
    s.takeReport c (.lost p) = waitEnded s c (some (raisedRecord (s.chan c) .peerLost (some p))) .faulted :=
  failWaiting_eq rfl s c (some p)

theorem exec_waitTimerExpiry {ms : Nat} (waiting : (s.chan c).state = .waiting) (timer : (s.chan c).waitTimer = .running ms) :
    exec (.waitTimerExpiry c) s =
      .next (waitEnded s c (some (raisedRecord (s.chan c) .waitExpired none)) .faulted).settle := by
  rw [← failWaiting_eq rfl, exec, execWaitTimerExpiry, waiting, timer]
  rfl

/-! ## The reports of one event (R154, R156) -/

theorem judgeWaits_none (h : s.waitReports = []) : s.judgeWaits = none := by
  rw [State.judgeWaits, h]

theorem judgeWaits_some (h : s.waitReports ≠ []) :
    s.judgeWaits = some (State.deliverReports 8 s.waitReports (s.leaveWaitSet s.waitReports)) := by
  unfold State.judgeWaits
  cases reports : s.waitReports with
  | nil => exact absurd reports h
  | cons r rest => rfl

/-- The evaluation comes next to the retirements at ABSENT peers (log 17). -/
theorem ownStep_judgeWaits (waitsNowhere : ∀ v, s.absentRetire v = none) (h : s.judgeWaits = some u) : s.ownStep = some u := by
  have noRetirement : allTags.findSome? s.absentRetire = none := List.findSome?_eq_none_iff.2 fun v _ => waitsNowhere v
  rw [State.ownStep, noRetirement, h]
  rfl

theorem leaveWaitSet_eq (s : State) (l : List (Chan × WaitReport)) :
    s.leaveWaitSet l = { s with marks := { s.marks with waits := (s.leaveWaitSet l).marks.waits } } := by
  induction l generalizing s with
  | nil => rfl
  | cons r l ih => exact ih (s.setWait r.1 none)

theorem deliverReports_nil (n : Nat) (s : State) : State.deliverReports n [] s = s := by cases n <;> rfl

/-! ## Notices that fail a WAIT (R155 case 1) -/

/-- Channel `c` is a member of the wait set whose mask names `p`. -/
def namesPeer (s : State) (p : Station) (c : Chan) : Bool :=
  match s.waitOf c with
  | some m => m.mask.getLsbD p.val
  | none => false

/-- A report settles the WAIT of its channel alone. -/
theorem waitOf_takeReport_lost (s : State) (p : Station) (h : d ≠ c) : (s.takeReport c (.lost p)).waitOf d = s.waitOf d := by
  have left : (s.setWait c none).waitOf d = s.waitOf d := State.waitOf_setWait_of_ne s h.symm none
  rw [takeReport_lost, waitEnded, (onlyChannel_complete _ c _).waitOf]
  exact left

/-- A notice told to one channel. -/
def tellLost (p : Station) (s : State) (c : Chan) : State :=
  if namesPeer s p c = true then s.takeReport c (.lost p) else s

theorem failWaitsOn_eq (s : State) (p : Station) : s.failWaitsOn p = allChans.foldl (tellLost p) s := by
  refine congrArg (fun f => allChans.foldl f s) (funext fun u => funext fun c => ?_)
  unfold tellLost namesPeer
  cases u.waitOf c <;> rfl

/-- The notice reaches, of the channels of `l`, those whose masks named the peer before it. -/
theorem foldl_tellLost (p : Station) (l : List Chan) (once : l.Nodup) (same : ∀ c ∈ l, u.waitOf c = s.waitOf c) :
    l.foldl (tellLost p) u = (l.filter (namesPeer s p)).foldl (fun u c => u.takeReport c (.lost p)) u := by
  induction l generalizing u with
  | nil => rfl
  | cons c l ih =>
    obtain ⟨notLater, once⟩ := List.nodup_cons.1 once
    have later (d : Chan) (hd : d ∈ l) : u.waitOf d = s.waitOf d := same d (List.mem_cons_of_mem c hd)
    have told (d : Chan) (hd : d ∈ l) : (u.takeReport c (.lost p)).waitOf d = s.waitOf d := by
      have other : d ≠ c := fun own => notLater (own ▸ hd)
      exact (waitOf_takeReport_lost u p other).trans (later d hd)
    have named : namesPeer u p c = namesPeer s p c := by rw [namesPeer, same c List.mem_cons_self, namesPeer]
    rw [List.foldl_cons, tellLost, named, List.filter_cons]
    split
    · exact ih once told
    · exact ih once later

/-- Settles O51: the evaluation, the effects of the reports, the reports of one event, and the notices. -/
theorem waitsAreJudged : Obligations.WaitsAreJudged := by
  unfold Obligations.WaitsAreJudged
  refine ⟨fun s m => ?_, fun s c => ?_, fun s => ?_, fun s p => ?_⟩
  · exact ⟨fun p => evaluate_lost_iff, evaluate_satisfied_iff⟩
  · intro ch ended raised
    have ended_eq (code : FaultCode) (peer : Option Station) :
        waitEnded s c (some (raisedRecord ch code peer)) .faulted = ended (raised code peer) .faulted := by
      unfold ended raised raisedRecord
      cases ch.fault <;> rfl
    exact ⟨takeReport_satisfied s c, fun p => (takeReport_lost s c p).trans (ended_eq _ _), fun ms waiting timer =>
      (exec_waitTimerExpiry waiting timer).trans (by rw [ended_eq])⟩
  · exact ⟨fun c r => mem_waitReports, waitReports_sorted s, judgeWaits_none, judgeWaits_some,
      fun waitsNowhere u => ownStep_judgeWaits waitsNowhere, fun l => ⟨leaveWaitSet_eq s l, waitOf_leaveWaitSet s l⟩,
      fun n c r rest => ⟨deliverReports_nil n s, State.deliverReports_cons s n (c, r) rest⟩⟩
  · rw [failWaitsOn_eq, foldl_tellLost p allChans (by decide) fun c _ => rfl]
    rfl

end Sys2Proof.Channels
end

section
/-! SUPPORT. Which sequences the entries carry (R133), and the operations on the transaction table, the channels and the
peers that keep them distinct. -/
namespace Sys2Proof.Sequences

open Sys2Proof Sys2Proof.Machine Sys2Proof.Safety

-- Each thread of the elaborator reserves 1 GB under the memory limit of the check.
set_option Elab.async false

/-! ## The number of an entry -/

/-- What a target tells an entry by: the peer it is addressed to and its sequence, once it has one. -/
def numberOf (e : Entry) : Option (Station × Byte) := e.seq.map fun q => (e.peer, q)

/-- The number that the entry with tag `v` carries; absent while it is FREE or has no sequence. -/
def carries (s : State) (v : Tag) : Option (Station × Byte) := (s.entry v).bind numberOf

/-- If the sequences are distinct in `s`, they are in `t`. -/
def SeqsKept (s t : State) : Prop := SequencesDistinct s → SequencesDistinct t

variable {s t u : State} {v : Tag} {e f : Entry}

theorem numberOf_iff {p : Station} {q : Byte} : numberOf e = some (p, q) ↔ e.peer = p ∧ e.seq = some q := by
  simp [numberOf, and_comm]

theorem carries_iff {p : Station} {q : Byte} :
    carries s v = some (p, q) ↔ ∃ e, s.entry v = some e ∧ e.peer = p ∧ e.seq = some q := by
  simp only [carries, Option.bind_eq_some_iff, numberOf_iff]

theorem carries_of_entry (entry : s.entry v = some e) : carries s v = numberOf e := by
  rw [carries, entry, Option.bind_some]

theorem carries_setEntry (s : State) (v w : Tag) (y : Option Entry) :
    carries (s.setEntry v y) w = if v = w then y.bind numberOf else carries s w := by
  rw [carries, State.entry_setEntry]
  split <;> rfl

/-- The sequences are distinct when no number is carried twice. -/
theorem sequencesDistinct_iff :
    SequencesDistinct s ↔ ∀ v w n, carries s v = some n → carries s w = some n → v = w := by
  constructor
  · intro distinct v w ⟨p, q⟩ hv hw
    obtain ⟨e, he, peer, seq⟩ := carries_iff.1 hv
    obtain ⟨f, hf, peer', seq'⟩ := carries_iff.1 hw
    exact distinct v w e f q he hf (peer.trans peer'.symm) seq seq'
  · intro once v w e f q he hf peer seq seq'
    exact once v w (f.peer, q) (carries_iff.2 ⟨e, he, peer, seq⟩) (carries_iff.2 ⟨f, hf, rfl, seq'⟩)

theorem SeqsKept.refl (s : State) : SeqsKept s s := id

theorem SeqsKept.trans (h : SeqsKept s t) (h' : SeqsKept t u) : SeqsKept s u := h' ∘ h

theorem SeqsKept.ite {c : Prop} [Decidable c] (yes : SeqsKept s t) (no : SeqsKept s u) :
    SeqsKept s (if c then t else u) := iteInduction (fun _ => yes) fun _ => no

theorem seqsKept_foldl {α : Type} {f : State → α → State} (h : ∀ s a, SeqsKept s (f s a)) (l : List α) (s : State) :
    SeqsKept s (l.foldl f s) := by
  induction l generalizing s with
  | nil => exact .refl s
  | cons a l ih => exact (h s a).trans (ih (f s a))

theorem SeqsKept.of_entry (same : ∀ v, t.entry v = s.entry v) : SeqsKept s t := fun distinct v w e f q he hf =>
  distinct v w e f q (same v ▸ he) (same w ▸ hf)

/-- A change of other blocks than the entries. -/
theorem SeqsKept.of_blocks (entries : t.entries = s.entries := by rfl) : SeqsKept s t :=
  .of_entry fun v => by rw [State.entry, entries, State.entry]

/-- No entry carries a sequence after a reset. -/
theorem sequencesDistinct_of_reset (entries : t.entries = .replicate 16 none) : SequencesDistinct t := by
  intro v w e f q he
  simp [State.entry, entries] at he

/-! ## One entry written -/

/-- An entry is written whose number no other entry carries. -/
theorem sequencesDistinct_setEntry {y : Option Entry} (distinct : SequencesDistinct s)
    (unused : ∀ n w, y.bind numberOf = some n → carries s w = some n → w = v) : SequencesDistinct (s.setEntry v y) := by
  rw [sequencesDistinct_iff] at distinct ⊢
  intro a b n ha hb
  rw [carries_setEntry] at ha hb
  split at ha <;> split at hb
  · subst_vars; rfl
  · subst_vars; exact (unused n b ha hb).symm
  · subst_vars; exact unused n a hb ha
  · exact distinct a b n ha hb

/-- An entry becomes FREE, or is given out without a sequence. -/
theorem seqsKept_unnumbered (s : State) (v : Tag) {y : Option Entry} (h : y.bind numberOf = none) :
    SeqsKept s (s.setEntry v y) := fun distinct =>
  sequencesDistinct_setEntry distinct fun n w hn => by rw [h] at hn; cases hn

/-- An entry written without a change of its peer and its sequence. -/
theorem seqsKept_setEntry (entry : s.entry v = some e) (peer : f.peer = e.peer := by rfl)
    (seq : f.seq = e.seq := by rfl) : SeqsKept s (s.setEntry v (some f)) := fun distinct =>
  sequencesDistinct_setEntry distinct fun n w hn hw => by
    have same : numberOf f = numberOf e := by rw [numberOf, numberOf, peer, seq]
    have own : carries s v = some n := by rw [carries_of_entry entry, ← same]; exact hn
    exact sequencesDistinct_iff.1 distinct w v n hw own

theorem seqsKept_modEntry (s : State) (v : Tag) (f : Entry → Entry) (peer : ∀ e, (f e).peer = e.peer := by intro; rfl)
    (seq : ∀ e, (f e).seq = e.seq := by intro; rfl) : SeqsKept s (s.modEntry v f) := by
  unfold State.modEntry
  cases entry : s.entry v with
  | none => exact seqsKept_unnumbered s v rfl
  | some e => exact seqsKept_setEntry entry (peer e) (seq e)

theorem seqsKept_joinWaitList (s : State) (v : Tag) (p : Station) : SeqsKept s (s.joinWaitList v p) :=
  (seqsKept_modEntry s v fun e => { e with state := .waitingCredit, replyTimer := .stopped }).trans .of_blocks

theorem seqsKept_retire (s : State) (v : Tag) (o : PieceOutcome) : SeqsKept s (s.retire v o) := by
  unfold State.retire
  split
  · exact .refl s
  · exact (seqsKept_unnumbered s v (y := none) rfl).trans (.of_blocks (by simp))

/-- What leaves the entries as they are, and then retires one of them. -/
theorem seqsKept_thenRetire (v : Tag) (o : PieceOutcome) (entries : t.entries = s.entries := by rfl) :
    SeqsKept s (t.retire v o) := (SeqsKept.of_blocks entries).trans (seqsKept_retire t v o)

/-! ## The part's own steps -/

theorem seqsKept_absentRetire (h : s.absentRetire v = some t) : SeqsKept s t := by
  obtain ⟨e, reason, -, -, -, rfl⟩ := State.absentRetire_spec h
  exact seqsKept_thenRetire v _

/-- R133: the sequence an entry takes on its first credit is one that no entry to its peer carries. -/
theorem seqsKept_creditHanding {p : Station} (h : s.creditHanding p = some t) : SeqsKept s t := by
  obtain ⟨v, rest, e, seq, next, -, -, entry, -, peer, number, rfl⟩ := State.creditHanding_spec h
  have queued (q : PeerEntry) : SeqsKept s ((s.setPeer p q).setEntry v
      (some { e with state := .queued, inTransmission := false, seq := some seq })) := by
    rcases number with ⟨again, -⟩ | ⟨first, rfl, -⟩
    · exact SeqsKept.trans .of_blocks (seqsKept_setEntry (s := s.setPeer p q) entry (seq := again.symm))
    · refine fun distinct => sequencesDistinct_setEntry (s := s.setPeer p q) distinct fun n w taken carried => ?_
      obtain ⟨-, -, -, fresh, -⟩ := PeerBus.takeSeq_first_free entry first p
      obtain rfl : (e.peer, s.takeSeq p) = n := Option.some.inj taken
      obtain ⟨f, hf, toPeer, same⟩ := carries_iff.1 carried
      exact absurd ((PeerBus.mem_carried_iff s p _).2 ⟨w, f, hf, toPeer.trans peer, same⟩) fresh
  exact (queued _).trans .of_blocks

/-- R129, R133: a piece is issued without a sequence. -/
theorem seqsKept_entryAllocation (h : s.entryAllocation = some t) : SeqsKept s t := by
  obtain ⟨c, rest, v, -, -, -, rfl⟩ := State.entryAllocation_spec h
  have given := seqsKept_unnumbered s v (y := some ((s.chan c).nextEntry c)) rfl
  exact given.trans (.of_entry fun w => by rw [Channels.issue_entry, State.entry_setEntry]; rfl)

theorem seqsKept_descriptorEnd {c : Chan} (h : s.descriptorEnd c = some t) : SeqsKept s t := by
  obtain ⟨-, rfl⟩ := State.descriptorEnd_spec h
  exact .of_blocks (by simp)

theorem seqsKept_recordWriteIssue (h : s.recordWriteIssue = some t) : SeqsKept s t := by
  obtain ⟨c, rest, r, -, -, -, -, rfl⟩ := State.recordWriteIssue_spec h
  exact .of_blocks

theorem seqsKept_asking {p : Station} (h : s.asking p = some t) : SeqsKept s t := by
  obtain ⟨-, -, -, rfl⟩ := State.asking_spec h
  exact .of_blocks

theorem seqsKept_granting (h : s.granting = some t) : SeqsKept s t := by
  obtain ⟨a, rest, -, -, -, g, -, rfl⟩ := State.granting_spec h
  exact .of_blocks

theorem seqsKept_leaveQueued (h : s.leaveQueued = some t) : SeqsKept s t := by
  obtain ⟨-, -, -, -, rfl⟩ := State.leaveQueued_spec h
  exact .of_blocks

theorem seqsKept_accessGrant (h : s.accessGrant = some t) : SeqsKept s t := by
  obtain ⟨-, ⟨a, rest, -, -, rfl⟩ | ⟨b, rest, -, -, rfl⟩⟩ := State.accessGrant_spec h
  · exact .of_blocks
  · exact .of_blocks (by simp)

theorem seqsKept_ownStep (h : s.ownStep = some t) : SeqsKept s t := by
  rcases State.ownStep_cases h with ⟨v, h⟩ | h | ⟨c, h⟩ | h | ⟨p, h⟩ | ⟨p, h⟩ | h | h | h | h
  · exact seqsKept_absentRetire h
  · obtain ⟨-, rfl⟩ := State.judgeWaits_spec h
    exact .of_blocks (by simp)
  · exact seqsKept_descriptorEnd h
  · exact seqsKept_recordWriteIssue h
  · exact seqsKept_creditHanding h
  · exact seqsKept_asking h
  · exact seqsKept_entryAllocation h
  · exact seqsKept_granting h
  · exact seqsKept_leaveQueued h
  · exact seqsKept_accessGrant h

theorem seqsKept_settle (s : State) : SeqsKept s s.settle :=
  State.settle_rel .refl (fun _ _ _ => .trans) (fun _ _ => seqsKept_ownStep) s

theorem SeqsKept.settle (h : SeqsKept s t) : SeqsKept s t.settle := h.trans (seqsKept_settle t)

/-! ## Replies, timeouts and loads (R131, R136 to R141) -/

theorem seqsKept_leaveForReply (s : State) (v : Tag) (e : Entry) : SeqsKept s (s.leaveForReply v e) := by
  unfold State.leaveForReply
  split
  · exact .of_blocks
  · exact .of_blocks
  · exact seqsKept_modEntry s v fun e => { e with replyTimer := .stopped }
  · exact .refl s
  · exact .refl s

theorem seqsKept_settleRead (s : State) (v : Tag) (e : Entry) (payload : List Byte) :
    SeqsKept s (s.settleRead v e payload) := by
  have stored := seqsKept_modEntry s v fun e => { e with state := .storing, replyTimer := .stopped, buffer := payload }
  exact .ite (seqsKept_retire s v _) (stored.trans .of_blocks)

theorem seqsKept_settleNoCredit (s : State) (v : Tag) (e : Entry) : SeqsKept s (s.settleNoCredit v e) := by
  have lost : SeqsKept s (s.modPeer e.peer fun q => { q with held := 0 }) := .of_blocks
  exact .ite (seqsKept_thenRetire v _) (lost.trans (seqsKept_joinWaitList _ v _))

theorem seqsKept_settleReply (s : State) (r : ReplyHeard) (e : Entry) : SeqsKept s (s.settleReply r e) := by
  refine (seqsKept_leaveForReply s r.tag e).trans ?_
  unfold State.settleReply
  generalize s.leaveForReply r.tag e = w
  cases r.status with
  | done => exact .ite (seqsKept_retire w _ _) (seqsKept_settleRead w _ e _)
  | refusedAccess | refusedRange | localError => exact seqsKept_retire w _ _
  | noCredit => exact seqsKept_settleNoCredit w _ e

theorem seqsKept_takeReply (s : State) (r : ReplyHeard) : SeqsKept s (s.takeReply r) := by
  unfold State.takeReply
  split
  · exact .refl s
  · exact .ite (seqsKept_settleReply s r _) (.refl s)

theorem seqsKept_expireReply (s : State) (v : Tag) (e : Entry) : SeqsKept s (s.expireReply v e) :=
  .ite (seqsKept_retire s v _) (.ite (seqsKept_joinWaitList s v _) (seqsKept_retire s v _))

theorem seqsKept_endLoad (entry : s.entry v = some e) (o : AccessEnd) : SeqsKept s (s.endLoad v e o) := by
  unfold State.endLoad
  split
  · exact seqsKept_retire s v _
  · exact seqsKept_retire s v _
  · exact .ite (seqsKept_retire s v _) ((seqsKept_setEntry entry).trans (seqsKept_joinWaitList _ v _))

/-! ## Abort of a channel's entries (R142) -/

theorem seqsKept_markAborting (s : State) (c : Chan) : SeqsKept s (s.markAborting c) := by
  refine seqsKept_foldl (fun s v => ?_) allTags s
  split
  · exact .refl s
  · rename_i e entry
    have marked : SeqsKept s (s.setEntry v (some { e with aborting := true })) := seqsKept_setEntry entry
    exact .ite (.ite (marked.trans .of_blocks) marked) (.refl s)

theorem seqsKept_abortEntry (s : State) (c : Chan) (v : Tag) : SeqsKept s (s.abortEntry c v) := by
  unfold State.abortEntry
  split
  · exact .refl s
  rename_i e _
  refine .ite ?_ (.refl s)
  cases e.state with
  | waitingCredit => exact seqsKept_retire s v _
  | queued => exact .ite (.refl s) (seqsKept_thenRetire v _)
  | loading | sent | storing => exact .refl s

theorem seqsKept_abortEntries (s : State) (c : Chan) : SeqsKept s (s.abortEntries c) :=
  (seqsKept_markAborting s c).trans (seqsKept_foldl (fun s v => (seqsKept_abortEntry s c v).settle) allTags _)

theorem seqsKept_abortChannel (s : State) (c : Chan) : SeqsKept s (s.abortChannel c).1 := by
  have running : SeqsKept s (s.abortRunning c) :=
    SeqsKept.settle (SeqsKept.trans (.of_blocks (by simp)) (seqsKept_abortEntries _ c))
  have completing : SeqsKept s (s.abortCompleting c).1 := by
    unfold State.abortCompleting
    dsimp only
    split
    · exact .of_blocks
    · exact .refl s
  unfold State.abortChannel
  dsimp only
  split
  case h_3 => exact .of_blocks
  case h_6 | h_7 => dsimp only; exact running
  case h_12 => exact SeqsKept.settle (.of_blocks (by simp))
  case h_13 => exact completing
  all_goals exact .refl s

/-! ## Peer cleanup and the updates by what is heard (R38 to R48) -/

theorem seqsKept_cleanupEntry (entry : s.entry v = some e) (why : FaultCode) : SeqsKept s (s.cleanupEntry why v e) := by
  unfold State.cleanupEntry
  cases e.state with
  | waitingCredit => exact seqsKept_thenRetire v _
  | queued =>
      refine seqsKept_thenRetire v _ ?_
      split <;> rfl
  | sent => exact seqsKept_retire s v _
  | loading => exact seqsKept_setEntry entry
  | storing => exact .refl s

theorem seqsKept_cleanup (s : State) (p : Station) (why : FaultCode) : SeqsKept s (s.cleanup p why) := by
  have entries : SeqsKept s (State.cleanupEntries p why 64 s) :=
    PeerBus.cleanupEntries_keeps (P := SeqsKept s) (fun _ h => h.settle)
      (fun _ why _ _ entry h => h.trans (seqsKept_cleanupEntry entry why)) p why 64 (.refl s)
  obtain ⟨x, frame⟩ := PeerTable.cleanup_frame s p why
  rw [frame]
  generalize State.cleanupEntries p why 64 s = w at entries
  exact entries.trans .of_blocks

/-- Steps taken one after another for the members of a list leave the entries if each does. -/
theorem foldl_entries {α : Type} {f : State → α → State} (h : ∀ s a, (f s a).entries = s.entries) (l : List α)
    (s : State) : (l.foldl f s).entries = s.entries := by
  induction l generalizing s with
  | nil => rfl
  | cons a l ih => exact (ih (f s a)).trans (h s a)

@[simp] theorem failWaitsOn_entries (s : State) (p : Station) : (s.failWaitsOn p).entries = s.entries := by
  refine foldl_entries (fun s c => ?_) allChans s
  split
  · split
    · simp
    · rfl
  · rfl

@[simp] theorem hearPresent_entries (s : State) (p : Station) (inc : Byte) (mark : Option Word) :
    (s.hearPresent p inc mark).entries = s.entries := rfl

theorem seqsKept_presenceUpdate (s : State) (p : Station) (inc : Byte) (mark : Option Word) (isJoin : Bool) :
    SeqsKept s (s.presenceUpdate p inc mark isJoin) := by
  unfold State.presenceUpdate
  split
  · exact .of_blocks
  · exact .of_blocks
  · exact .ite .of_blocks ((seqsKept_cleanup s p .peerRestarted).trans (.of_blocks (by simp)))

theorem seqsKept_leaveUpdate (s : State) (p : Station) (inc : Byte) (mark : Word) :
    SeqsKept s (s.leaveUpdate p inc mark) := by
  have left := seqsKept_cleanup s p .peerLeft
  unfold State.leaveUpdate
  generalize s.cleanup p .peerLeft = w at left
  exact .ite (left.trans .of_blocks) (left.trans (.of_blocks (by simp)))

theorem seqsKept_silenceUpdate (s : State) (p : Station) : SeqsKept s (s.silenceUpdate p) :=
  (seqsKept_cleanup s p .peerLost).trans (.of_blocks (by simp [State.silenceUpdate]))

theorem seqsKept_deliverReply (s : State) (p : Station) (inc : Byte) (kind : ReqKind) (tag seq echo status : Byte)
    (payload : List Byte) : SeqsKept s (s.deliverReply p inc kind tag seq echo status payload) := by
  have present := seqsKept_presenceUpdate s p inc none false
  unfold State.deliverReply
  split
  · exact present
  · exact present.trans (seqsKept_takeReply _ _)

/-! ## Isolation (R14, R126, R146) -/

@[simp] theorem isolateChannel_entries (s : State) (c : Chan) : (s.isolateChannel c).entries = s.entries := by
  unfold State.isolateChannel
  dsimp only
  split <;> rfl

@[simp] theorem endIsolated_entries (s : State) (c : Chan) : (s.endIsolated c).entries = s.entries := by
  unfold State.endIsolated
  split
  · simp
  · rfl

theorem seqsKept_isolateEntry (s : State) (v : Tag) : SeqsKept s (s.isolateEntry v) := by
  have below (c : Chan) : (s.endIsolatedBelow c).entries = s.entries := by
    unfold State.endIsolatedBelow
    split
    · exact foldl_entries endIsolated_entries _ s
    · rfl
  unfold State.isolateEntry
  split
  · exact .refl s
  rename_i e entry
  have retired : SeqsKept s (((s.endIsolatedBelow e.chan).retire v (e.failedOrAborted .isolated)).endIsolated e.chan) :=
    (seqsKept_thenRetire v _ (below e.chan)).trans (.of_blocks (endIsolated_entries _ _))
  cases e.state with
  | waitingCredit | queued | sent => exact retired
  | loading => exact seqsKept_setEntry entry
  | storing => exact .refl s

theorem seqsKept_isolate (s : State) : SeqsKept s s.isolate := by
  have left : (s.leaveBus.discardSlots.clearPeers.clearNotices.stopStationTimers.enterStation .isolated).entries
      = s.entries := by
    obtain ⟨w, h⟩ := PeerBus.clearNotices_frame s.leaveBus.discardSlots.clearPeers
    rw [h]
    rfl
  unfold State.isolate
  dsimp only
  generalize s.leaveBus.discardSlots.clearPeers.clearNotices.stopStationTimers.enterStation .isolated = w at left
  have channels : SeqsKept s (allChans.foldl State.isolateChannel { w with readyList := [] }) :=
    .of_blocks ((foldl_entries isolateChannel_entries _ _).trans left)
  have entries := channels.trans (seqsKept_foldl seqsKept_isolateEntry allTags _)
  exact (entries.trans (.of_blocks (foldl_entries endIsolated_entries allChans _))).settle

end Sys2Proof.Sequences
end

section
/-! SUPPORT. From the operations to the commands: every step keeps the sequences to one peer distinct (R133). -/
namespace Sys2Proof.Sequences

open Sys2Proof Sys2Proof.Machine Sys2Proof.Safety

-- Each thread of the elaborator reserves 1 GB under the memory limit of the check.
set_option Elab.async false

variable {s t : State}

/-! ## Operations that leave the entries -/

@[simp] theorem takeAsk_entries (s : State) (p : Station) (n : Nat) : (s.takeAsk p n).entries = s.entries := by
  simp only [State.takeAsk, State.joinAskList, apply_ite State.entries, State.setGrant_entries, ite_self]

@[simp] theorem takeGrant_entries (s : State) (p : Station) (n : Nat) (echo : Byte) :
    (s.takeGrant p n echo).entries = s.entries := by
  unfold State.takeGrant
  split <;> rfl

@[simp] theorem replySlot_entries (s : State) (i : SlotNo) (status : ReplyStatus) :
    (s.replySlot i status).entries = s.entries := by
  unfold State.replySlot
  split <;> rfl

@[simp] theorem recordServed_entries (s : State) (x : Slot) (status : ReplyStatus) :
    (s.recordServed x status).entries = s.entries := by
  unfold State.recordServed
  split <;> rfl

@[simp] theorem notice_entries (s : State) (x : Slot) (status : ReplyStatus) :
    (s.notice x status).entries = s.entries := by
  unfold State.notice
  split <;> rfl

@[simp] theorem checkWindow_entries (s : State) (i : SlotNo) (x : Slot) : (s.checkWindow i x).entries = s.entries := by
  simp [State.checkWindow, State.refuseSlot, apply_ite State.entries]

@[simp] theorem checkArrival_entries (s : State) (i : SlotNo) (x : Slot) : (s.checkArrival i x).entries = s.entries := by
  unfold State.checkArrival
  split
  · simp
  split
  · simp
  split <;> simp

@[simp] theorem takeRequest_entries (s : State) (r : Request) : (s.takeRequest r).entries = s.entries := by
  unfold State.takeRequest
  split
  · split
    · exact checkArrival_entries _ _ _
    · rfl
  · unfold State.refuse
    split <;> rfl

@[simp] theorem endSlotAccess_entries (s : State) (i : SlotNo) (first : Nat) (e : AccessEnd) :
    (s.endSlotAccess i first e).entries = s.entries := by
  unfold State.endSlotAccess
  split
  · rfl
  · refine (foldl_entries (fun s j => replySlot_entries s j _) _ _).trans ?_
    simp

@[simp] theorem applyWrite_entries (s : State) (a : Access) (e : AccessEnd) : (s.applyWrite a e).entries = s.entries := by
  unfold State.applyWrite
  split <;> rfl

@[simp] theorem enterJoining_entries (s : State) (inc : Byte) : (s.enterJoining inc).entries = s.entries := by
  obtain ⟨x, h⟩ := PeerBus.clearSequences_frame { s with
    station := { s.station with incarnation := some inc, joinListen := .running s.silenceTimeout }
    marks := { s.marks with own := 0#16 } }
  unfold State.enterJoining
  dsimp only
  rw [h]
  rfl

@[simp] theorem clearAsked_entries (s : State) : s.clearAsked.entries = s.entries := by
  obtain ⟨x, h⟩ := PeerBus.foldl_modPeer_frame (fun q => { q with asked := false, askTimer := .stopped }) allStations s
  rw [State.clearAsked, h]

@[simp] theorem enterLeaving_entries (s : State) : s.enterLeaving.entries = s.entries := by
  simp only [State.enterLeaving, clearAsked_entries, State.withdrawControl_entries, State.enterStation_entries]

@[simp] theorem endSession_entries (s : State) : s.endSession.entries = s.entries := by
  obtain ⟨w, h⟩ := PeerBus.clearNotices_frame s.clearPeers
  rw [State.endSession, h]
  rfl

@[simp] theorem endFetch_entries (s : State) (c : Chan) (data : Option (List Byte)) :
    (s.endFetch c data).entries = s.entries := by
  unfold State.endFetch
  dsimp only
  split
  · rfl
  split
  · split <;> simp
  split
  · simp
  · simp
  split
  · unfold State.beginDescriptor
    split <;> simp
  · simp

@[simp] theorem endRecord_entries (s : State) (c : Chan) (ok : Bool) : (s.endRecord c ok).entries = s.entries := by
  unfold State.endRecord
  split
  · split <;> simp [State.loseRecord]
  · rfl

/-! ## The shapes that meanings have -/

/-- A command taken by a write of CMD: what its decision keeps, it keeps. -/
theorem seqsKept_takeCommand {code operand : Byte} {decision : State → State × ResultCode}
    (h : ∀ u : State, SeqsKept u (decision u).1) : SeqsKept s (s.takeCommand code operand decision) := by
  by_cases running : s.phase = .running
  · rw [State.takeCommand_running running]
    exact (SeqsKept.of_blocks (t := commanded s code operand)).trans ((h _).trans .of_blocks)
  · rw [State.takeCommand_silent running]
    exact .refl s

/-- A command that one station state takes. -/
theorem seqsKept_inStateOnly {st : StationState} {decision : State → State × ResultCode}
    (h : SeqsKept s (decision s).1) : SeqsKept s (s.inStateOnly st decision).1 :=
  PeerBus.inStateOnly_keeps (P := SeqsKept s) (fun _ => h) (.refl s)

/-- A message heard (R22): what its delivery keeps, the command keeps. -/
theorem seqsKept_hearFrom {source : Byte} {ok : Bool} {take : Station → State → State}
    (h : ∀ (p : Station) (u : State), SeqsKept u (take p u)) : SeqsKept s (s.hearFrom source ok take) := by
  have ended (r : SlotRef) : SeqsKept s (s.activityEnd r) := .of_blocks
  unfold State.hearFrom
  refine .ite (.refl s) (.ite (ended _) (.ite (seqsKept_isolate s) ?_))
  split
  · exact ended _
  · exact .ite ((ended _).trans (h _ _)).settle (ended _)

/-- The end of an access (R162): what its report keeps, it keeps. -/
theorem seqsKept_finishAccess {cur : CurrentAccess} {e : AccessEnd} {report : State → State}
    (h : ∀ u : State, SeqsKept u (report u)) : SeqsKept s (s.finishAccess cur e report) := by
  have wrote : SeqsKept s (s.applyWrite cur.access e) := .of_blocks (by simp)
  have reported : SeqsKept s (if cur.dropped then s.applyWrite cur.access e else report (s.applyWrite cur.access e)) :=
    .ite wrote (wrote.trans (h _))
  exact (reported.trans .of_blocks).settle

/-- A row of a step of the part itself. -/
theorem seqsKept_ownRow {step : Option State} (h : ∀ t, step = some t → SeqsKept s t) : SeqsKept s (s.ownRow step) := by
  unfold State.ownRow
  cases step with
  | none => exact seqsKept_settle s
  | some t => exact (h t rfl).settle

/-! ## Resets -/

theorem seqsKept_softReset (s : State) : SeqsKept s s.softResetBlocks := fun _ => by
  unfold State.softResetBlocks
  dsimp only
  split <;> exact sequencesDistinct_of_reset rfl

/-! ## Transmission -/

theorem seqsKept_send (s : State) (repliesOnly : Bool) : SeqsKept s (s.send repliesOnly) := by
  unfold State.send
  split
  · exact .of_blocks
  refine .ite (.refl s) ?_
  split
  · exact .of_blocks
  unfold State.sendRequest
  split
  · exact .refl s
  rename_i v rest _
  split
  · exact .refl s
  · rename_i e entry
    have taken : SeqsKept s { s with bus := { s.bus with requestQueue := rest } } := .of_blocks
    have sending := seqsKept_setEntry (s := { s with bus := { s.bus with requestQueue := rest } }) entry
      (f := { e with inTransmission := true })
    exact (taken.trans sending).trans .of_blocks

theorem seqsKept_busSlotStart (n : Nat) (h : execBusSlotStart n s = .next t) : SeqsKept s t := by
  cases h
  have counted (m : Nat) : SeqsKept s (s.countTo m) := .of_blocks
  split
  · exact .refl s
  · exact .ite ((counted _).trans (seqsKept_send _ _)) (.refl s)

theorem seqsKept_coldGuardExpiry (n : Nat) (h : execColdGuardExpiry n s = .next t) : SeqsKept s t := by
  cases h
  have counted (m : Nat) : SeqsKept s (s.countTo m) := .of_blocks
  split
  · exact .refl s
  · exact .ite ((counted _).trans (seqsKept_send _ _)) (.refl s)

theorem seqsKept_reportSent (s : State) (item : Outgoing) : SeqsKept s (s.reportSent item) := by
  unfold State.reportSent
  split
  case h_1 => split <;> exact .of_blocks
  case h_2 => exact .of_blocks (endSession_entries s)
  case h_7 v => exact seqsKept_modEntry s v fun e => e.sentNow s.replyTimeout
  all_goals exact .refl s

theorem seqsKept_transmissionEnd (h : execTransmissionEnd s = .next t) : SeqsKept s t := by
  cases h
  split
  · exact .refl s
  · exact SeqsKept.settle (.ite .of_blocks (SeqsKept.trans .of_blocks (seqsKept_reportSent _ _)))

theorem seqsKept_returnToQueue (s : State) (item : Outgoing) : SeqsKept s (s.returnToQueue item) := by
  unfold State.returnToQueue
  split
  · exact .of_blocks
  · exact .of_blocks
  rename_i v
  split
  · exact .refl s
  · rename_i e entry
    have unsent : SeqsKept s (s.setEntry v (some { e with inTransmission := false })) := seqsKept_setEntry entry
    exact .ite (unsent.trans (seqsKept_thenRetire v _)) (unsent.trans .of_blocks)

theorem seqsKept_transmissionClash (h : execTransmissionClash s = .next t) : SeqsKept s t := by
  cases h
  split
  · exact .refl s
  have ended (n : Nat) : SeqsKept s { s with bus := { s.bus with
    transmit := none, clashCount := n, slotRef := .cold, line := .abandoned, slotClock := 0 } } := .of_blocks
  exact SeqsKept.settle (.ite ((ended _).trans (seqsKept_isolate _))
    (.ite (ended _) ((ended _).trans (seqsKept_returnToQueue _ _))))

/-! ## Ends of local accesses -/

theorem seqsKept_descriptorFetchEnd (o : AccessEnd) (h : execDescriptorFetchEnd o s = .next t) : SeqsKept s t := by
  cases h
  split
  · exact .refl s
  split
  · exact seqsKept_finishAccess fun u => .of_blocks (endFetch_entries u _ _)
  all_goals exact .refl s

theorem seqsKept_loadEnd (o : AccessEnd) (h : execLoadEnd o s = .next t) : SeqsKept s t := by
  cases h
  split
  · exact .refl s
  split
  · refine seqsKept_finishAccess fun u => ?_
    split
    · exact .ite (seqsKept_endLoad ‹_› o) (.refl u)
    · exact .refl u
  all_goals exact .refl s

theorem seqsKept_storeEnd (o : AccessEnd) (h : execStoreEnd o s = .next t) : SeqsKept s t := by
  cases h
  split
  · exact .refl s
  split
  · refine seqsKept_finishAccess fun u => ?_
    split
    · exact .ite (seqsKept_retire u _ _) (.refl u)
    · exact .refl u
  all_goals exact .refl s

theorem seqsKept_inboundAccessEnd (o : AccessEnd) (h : execInboundAccessEnd o s = .next t) : SeqsKept s t := by
  cases h
  split
  · exact .refl s
  split
  case h_1 | h_2 => exact seqsKept_finishAccess fun u => .of_blocks (endSlotAccess_entries u _ _ _)
  all_goals exact .refl s

theorem seqsKept_recordWriteEnd (o : AccessEnd) (h : execRecordWriteEnd o s = .next t) : SeqsKept s t := by
  cases h
  split
  · exact .refl s
  split
  · exact seqsKept_finishAccess fun u => .of_blocks (endRecord_entries u _ _)
  all_goals exact .refl s

/-! ## Every command -/

theorem seqsKept_setWindow (operand : Byte) (h : execSetWindow operand s = .next t) : SeqsKept s t := by
  cases h
  refine seqsKept_takeCommand fun u => seqsKept_inStateOnly ?_
  split
  · split
    · exact .of_blocks
    · exact .refl u
  · exact .refl u

theorem seqsKept_start (operand : Byte) (h : execStart operand s = .next t) : SeqsKept s t := by
  cases h
  refine seqsKept_takeCommand fun u => ?_
  split
  · exact .refl u
  split
  · exact .refl u
  split
  · exact .refl u
  split
  · exact .refl u
  split
  · exact SeqsKept.settle .of_blocks
  · exact .refl u

theorem seqsKept_clear (operand : Byte) (h : execClear operand s = .next t) : SeqsKept s t := by
  cases h
  refine seqsKept_takeCommand fun u => ?_
  split
  · exact .refl u
  · split
    · exact .of_blocks
    · exact .refl u

theorem seqsKept_readChannel (operand : Byte) (h : execReadChannel operand s = .next t) : SeqsKept s t := by
  cases h
  refine seqsKept_takeCommand fun u => ?_
  split
  · exact .refl u
  · split
    · exact .refl u
    · exact .of_blocks

theorem seqsKept_consumerWrite (v : Word) (h : execConsumerWrite v s = .next t) : SeqsKept s t := by
  cases h
  exact .ite (.ite (SeqsKept.settle (.of_blocks (by simp))) .of_blocks) (.refl s)

theorem seqsKept_registerWrite (addr : BitVec 7) (w : Word) (h : execRegisterWrite addr w s = .next t) :
    SeqsKept s t := by
  cases h
  refine .ite ?_ (.refl s)
  split
  · exact .of_blocks
  · exact .refl s

theorem seqsKept_replyTimerExpiry (v : Tag) (h : execReplyTimerExpiry v s = .next t) : SeqsKept s t := by
  cases h
  split
  · exact .refl s
  · exact .ite (seqsKept_expireReply s v _).settle (.refl s)

theorem seqsKept_exec (c : Instr) (h : Machine.exec c s = .next t) : SeqsKept s t := by
  cases c with
  | powerOn cut => cases h; exact fun _ => sequencesDistinct_of_reset rfl
  | resetPinAssert cut => cases h; exact fun _ => sequencesDistinct_of_reset rfl
  | resetEnd => cases h; split; exacts [.of_blocks, .refl s, .refl s]
  | configurationReadEnd answers => cases h; exact .ite .of_blocks (.refl s)
  | join op =>
      cases h
      exact seqsKept_takeCommand fun u => seqsKept_inStateOnly
        (by split; exacts [.of_blocks (enterJoining_entries u _), .refl u])
  | leave op =>
      cases h
      exact seqsKept_takeCommand fun u => seqsKept_inStateOnly
        (by split; exacts [SeqsKept.settle (.of_blocks (enterLeaving_entries u)), .refl u])
  | clearIsolation op =>
      cases h
      exact seqsKept_takeCommand fun u => seqsKept_inStateOnly (by split; exacts [.of_blocks, .refl u])
  | softReset op => cases h; exact seqsKept_takeCommand fun u => seqsKept_softReset u
  | setWindow op => exact seqsKept_setWindow op h
  | setRing op =>
      cases h
      exact seqsKept_takeCommand fun u => seqsKept_inStateOnly (by split; exacts [.of_blocks, .refl u])
  | start op => exact seqsKept_start op h
  | abort op =>
      cases h; exact seqsKept_takeCommand fun u => by split; exacts [.refl u, seqsKept_abortChannel u _]
  | clear op => exact seqsKept_clear op h
  | advanceMark op =>
      cases h
      exact seqsKept_takeCommand fun u => seqsKept_inStateOnly
        (SeqsKept.settle (.of_blocks (State.advanceMark_entries u)))
  | readChannel op => exact seqsKept_readChannel op h
  | readPeer op => cases h; exact seqsKept_takeCommand fun u => by split; exacts [.refl u, .of_blocks]
  | readWindow op => cases h; exact seqsKept_takeCommand fun u => by split; exacts [.refl u, .of_blocks]
  | readWatch op => cases h; exact seqsKept_takeCommand fun u => by split; exacts [.refl u, .of_blocks]
  | readPeerChanges op => cases h; exact seqsKept_takeCommand fun u => .of_blocks
  | unknownCommand code op => cases h; exact .ite (.refl s) (seqsKept_takeCommand .refl)
  | consumerWrite v => exact seqsKept_consumerWrite v h
  | attnWrite v => cases h; exact .ite .of_blocks (.refl s)
  | attnenWrite v => cases h; exact .ite .of_blocks (.refl s)
  | registerWrite a v => exact seqsKept_registerWrite a v h
  | activityBegin => cases h; exact .ite .of_blocks (.refl s)
  | badCheckActivity => cases h; exact .ite .of_blocks (.refl s)
  | malformedMessage source => cases h; exact seqsKept_hearFrom fun _ u => .refl u
  | joinHeard source inc mark =>
      cases h
      exact seqsKept_hearFrom fun p u =>
        (seqsKept_presenceUpdate u p inc _ true).trans (.of_blocks (State.queuePresence_entries _))
  | presenceHeard source inc mark =>
      cases h; exact seqsKept_hearFrom fun p u => seqsKept_presenceUpdate u p inc _ false
  | leaveHeard source inc mark => cases h; exact seqsKept_hearFrom fun p u => seqsKept_leaveUpdate u p inc mark
  | askHeard source inc wanted =>
      cases h
      exact seqsKept_hearFrom fun p u =>
        (seqsKept_presenceUpdate u p inc none false).trans (.of_blocks (takeAsk_entries _ p _))
  | grantHeard source inc credits echo =>
      cases h
      exact seqsKept_hearFrom fun p u =>
        (seqsKept_presenceUpdate u p inc none false).trans (.of_blocks (takeGrant_entries _ p _ echo))
  | writeHeard source inc tag seq low window offset payload =>
      cases h
      exact seqsKept_hearFrom fun p u =>
        (seqsKept_presenceUpdate u p inc none false).trans (.of_blocks (takeRequest_entries _ _))
  | readHeard source inc tag seq low window offset length =>
      cases h
      exact seqsKept_hearFrom fun p u =>
        (seqsKept_presenceUpdate u p inc none false).trans (.of_blocks (takeRequest_entries _ _))
  | ackHeard source inc tag seq echo status =>
      cases h; exact seqsKept_hearFrom fun p u => seqsKept_deliverReply u p inc .write tag seq echo status []
  | dataHeard source inc tag seq echo status payload =>
      cases h; exact seqsKept_hearFrom fun p u => seqsKept_deliverReply u p inc .read tag seq echo status payload
  | granting => cases h; exact seqsKept_ownRow fun _ => seqsKept_granting
  | busSlotStart n => exact seqsKept_busSlotStart n h
  | coldGuardExpiry n => exact seqsKept_coldGuardExpiry n h
  | transmissionEnd => exact seqsKept_transmissionEnd h
  | transmissionClash => exact seqsKept_transmissionClash h
  | leaveQueued => cases h; exact seqsKept_ownRow fun _ => seqsKept_leaveQueued
  | joinListenTimerExpiry => cases h; exact .ite (SeqsKept.settle .of_blocks) (.refl s)
  | presenceTimerExpiry => cases h; exact .ite (.of_blocks (State.queuePresence_entries s)) (.refl s)
  | silenceTimerExpiry p => cases h; exact .ite (seqsKept_silenceUpdate s p).settle (.refl s)
  | askTimerExpiry p => cases h; exact .ite (.ite (SeqsKept.settle .of_blocks) (SeqsKept.settle .of_blocks)) (.refl s)
  | replyTimerExpiry v => exact seqsKept_replyTimerExpiry v h
  | waitTimerExpiry c => cases h; exact .ite (SeqsKept.settle (.of_blocks (by simp))) (.refl s)
  | asking p => cases h; exact seqsKept_ownRow fun _ => seqsKept_asking
  | creditHanding p => cases h; exact seqsKept_ownRow fun _ => seqsKept_creditHanding
  | entryAllocation => cases h; exact seqsKept_ownRow fun _ => seqsKept_entryAllocation
  | descriptorEnd c => cases h; exact seqsKept_ownRow fun _ => seqsKept_descriptorEnd
  | accessGrant => cases h; exact seqsKept_ownRow fun _ => seqsKept_accessGrant
  | descriptorFetchEnd o => exact seqsKept_descriptorFetchEnd o h
  | loadEnd o => exact seqsKept_loadEnd o h
  | storeEnd o => exact seqsKept_storeEnd o h
  | inboundAccessEnd o => exact seqsKept_inboundAccessEnd o h
  | recordWriteIssue => cases h; exact seqsKept_ownRow fun _ => seqsKept_recordWriteIssue
  | recordWriteEnd o => exact seqsKept_recordWriteEnd o h
  | ownNumberHeard => cases h; exact .ite (.ite .of_blocks (seqsKept_isolate s)) (.refl s)
  | sourceNOrHigherHeard source => cases h; exact .ite .of_blocks (.refl s)
  | overheardMessage dest source kind inc =>
      cases h
      exact .ite (.refl s) (seqsKept_hearFrom fun p u => seqsKept_presenceUpdate u p inc none false)

/-- Settles O55: a sequence is taken at credit handing only, where no other entry to the peer carries it; every other
change of the entries keeps the numbers they carry, or frees them. -/
theorem everyStepKeepsSequencesDistinct : Obligations.EveryStepKeepsSequencesDistinct := by
  unfold Obligations.EveryStepKeepsSequencesDistinct
  intro s t distinct h
  unfold Machine.step at h
  split at h
  · cases h; exact distinct
  · exact seqsKept_exec _ h (SeqsKept.of_blocks (s := s) rfl distinct)

end Sys2Proof.Sequences
end

section
/-! SUPPORT. ADVANCE MARK (R151, R152): the transmitter is on in ONLINE, so an advance of the own mark there queues its early
PRESENCE. -/
namespace Sys2Proof.Marks

open Sys2Proof Sys2Proof.Machine Sys2Proof.Safety

-- Each thread of the elaborator reserves 1 GB under the memory limit of the check.
set_option Elab.async false

variable {s : State} {op : Byte}

/-- R7: the transmitter is on in ONLINE. -/
theorem transmitterOn_of_online (online : s.station.state = some .online) : s.transmitterOn = true := by
  simp [State.transmitterOn, State.receiverOn, State.inState, online]

/-- R152: while the transmitter is on, an advance of the own mark queues an early PRESENCE. -/
theorem advanceMark_of_transmitterOn (on : s.transmitterOn = true) :
    s.advanceMark = State.queuePresence { s with marks := { s.marks with own := s.marks.own + 1#16 } } :=
  if_pos on

theorem exec_advanceMark_accepted (running : s.phase = .running) (online : s.station.state = some .online) :
    exec (.advanceMark op) s = .next (resulted (commanded s 0x0A op).advanceMark.settle 0x0A accepted) := by
  have u : (commanded s Config.codeAdvanceMark op).station.state = some .online := online
  simp only [exec, execAdvanceMark, State.takeCommand_running running, State.inStateOnly_of_eq u]
  rfl

theorem exec_advanceMark_wrongState (running : s.phase = .running) (h : s.station.state ≠ some .online) :
    exec (.advanceMark op) s = .next (answeredOnly s 0x0A op wrongState) := by
  have u : (commanded s Config.codeAdvanceMark op).station.state ≠ some .online := h
  simp only [exec, execAdvanceMark, State.takeCommand_running running, State.inStateOnly_of_ne u]
  rfl

/-- Settles O17: the command is taken in ONLINE alone, where the advance finds the transmitter on. -/
theorem advanceMarkRaisesTheMark : Obligations.AdvanceMarkRaisesTheMark := by
  unfold Obligations.AdvanceMarkRaisesTheMark
  intro op s running u
  refine ⟨fun online => ?_, exec_advanceMark_wrongState running⟩
  have raised : u.advanceMark = State.queuePresence { u with marks := { u.marks with own := u.marks.own + 1#16 } } :=
    advanceMark_of_transmitterOn (transmitterOn_of_online online)
  rw [← raised]
  exact exec_advanceMark_accepted running online

end Sys2Proof.Marks
end

section
/-! SUPPORT. The consumer write (R166, R169): what its range test asks, and the write's two outcomes by that test. -/
namespace Sys2Proof.ConsumerWrites

open Sys2Proof Sys2Proof.Machine

-- Each thread of the elaborator reserves 1 GB under the memory limit of the check.
set_option Elab.async false

variable {s : State} {v : Word}

/-- R169: the distance from the present consumer, modulo 65536, is at most the number of records in the ring. -/
theorem accepts_iff {r : RingUnit} : r.accepts v = true ↔ (v - r.consumer).toNat ≤ (r.producer - r.consumer).toNat :=
  decide_eq_true_iff

theorem exec_consumerWrite_of_running (running : s.phase = .running) :
    exec (.consumerWrite v) s = .next (if s.ring.accepts v then
      (State.testRecordWrite { s with ring := { s.ring with consumer := v } }).settle
    else { s with host := { s.host with misuseCause := true } }) :=
  congrArg Host.Outcome.next (if_pos running)

/-- Settles O21: while the part runs, the range test alone decides between the two outcomes. -/
theorem consumerWriteStaysInRange : Obligations.ConsumerWriteStaysInRange := by
  unfold Obligations.ConsumerWriteStaysInRange
  intro v s running
  rw [exec_consumerWrite_of_running running]
  constructor
  · intro inRange
    rw [if_pos (accepts_iff.mpr inRange)]
  · intro beyond
    rw [if_neg (mt accepts_iff.mp beyond)]

end Sys2Proof.ConsumerWrites
end

section
/-! SUPPORT. The registers of the host port: when the ATTN line is active, what each register reads, and the writes of ATTN,
ATTNEN and the parameters (section 11.2, R172, R173, R180 to R182). -/
namespace Sys2Proof.HostRegisters

open Sys2Proof Sys2Proof.Machine

-- Each thread of the elaborator reserves 1 GB under the memory limit of the check.
set_option Elab.async false

variable {s : State} {w : Word} {a : BitVec 7}

/-! ## The ATTN line (R180, R182) -/

theorem ringCause_iff : s.ringCause = true ↔ s.ring.producer ≠ s.ring.consumer := decide_eq_true_iff

theorem peerCause_iff : s.peerCause = true ↔ s.changes ≠ 0#16 := decide_eq_true_iff

theorem mem_allWindows (x : WindowNo) : x ∈ allWindows := by revert x; decide

theorem watchCause_iff : s.watchCause = true ↔ ∃ x, (s.window x).notice.isSome = true := by
  simp [State.watchCause, mem_allWindows]

/-- R182: the six causes, each with the enable at its place. -/
theorem attnLine_iff : s.attnLine = true ↔ s.phase = .running ∧
    (s.ringCause = true ∧ s.host.attnen.getLsbD 0 = true ∨ s.faultCause = true ∧ s.host.attnen.getLsbD 1 = true ∨
      s.watchCause = true ∧ s.host.attnen.getLsbD 2 = true ∨ s.peerCause = true ∧ s.host.attnen.getLsbD 3 = true ∨
      s.host.stationCause = true ∧ s.host.attnen.getLsbD 4 = true ∨
      s.host.misuseCause = true ∧ s.host.attnen.getLsbD 5 = true) := by
  have places : List.range 6 = [0, 1, 2, 3, 4, 5] := rfl
  simp [State.attnLine, State.causes, places]

/-! ## The words that registers read (section 11.2) -/

theorem toNat_attnRegister (s : State) : s.attnRegister.toNat = bit s.ringCause + 2 * bit s.faultCause
    + 4 * bit s.watchCause + 8 * bit s.peerCause + 16 * bit s.host.stationCause + 32 * bit s.host.misuseCause
    + 32768 * bit s.attnLine := by
  have ring := HostViews.bit_le_one s.ringCause
  have fault := HostViews.bit_le_one s.faultCause
  have watch := HostViews.bit_le_one s.watchCause
  have peer := HostViews.bit_le_one s.peerCause
  have station := HostViews.bit_le_one s.host.stationCause
  have misuse := HostViews.bit_le_one s.host.misuseCause
  have line := HostViews.bit_le_one s.attnLine
  exact HostViews.toNat_packWord (by omega)

/-- The six causes stand below bit 15, so that bit is the line's. -/
theorem attnRegister_bit15 (s : State) : s.attnRegister.getLsbD 15 = s.attnLine := by
  have ring := HostViews.bit_le_one s.ringCause
  have fault := HostViews.bit_le_one s.faultCause
  have watch := HostViews.bit_le_one s.watchCause
  have peer := HostViews.bit_le_one s.peerCause
  have station := HostViews.bit_le_one s.host.stationCause
  have misuse := HostViews.bit_le_one s.host.misuseCause
  have line : s.attnRegister.toNat / 2 ^ 15 % 2 = bit s.attnLine := by
    have le := HostViews.bit_le_one s.attnLine
    rw [toNat_attnRegister]
    omega
  rw [BitVec.getLsbD, Nat.testBit_eq_decide_div_mod_eq, line]
  cases s.attnLine <;> rfl

theorem stationCode_le (x : Option StationState) : (x.map StationState.code).getD 0 ≤ 5 := by
  rcases x with _ | x
  · exact Nat.zero_le 5
  · cases x <;> decide

theorem toNat_stationWord0 (s : State) : s.stationWord0.toNat = (s.station.state.map StationState.code).getD 0
    + 8 * bit s.station.incarnation.isSome + 256 * (s.station.incarnation.getD 0#8).toNat := by
  have state := stationCode_le s.station.state
  have known := HostViews.bit_le_one s.station.incarnation.isSome
  exact HostViews.toNat_packWord (by omega)

theorem checkResult_code_le (x : CheckResult) : x.fields.1 ≤ 2 := by cases x <;> simp [CheckResult.fields]

/-- Of a position, RESETCAUSE shows the low byte. -/
theorem toNat_resetCauseWord {check : CheckResult} (h : s.latch.check = some check) :
    s.resetCauseWord.toNat = s.latch.cause.code + (16 * check.fields.1 + 256 * (check.fields.2 % 256)) := by
  have cause : s.latch.cause.code ≤ 3 := by cases s.latch.cause <;> decide
  have code := checkResult_code_le check
  simp only [State.resetCauseWord, h, packWord, BitVec.toNat_ofNat, Option.map_some, Option.getD_some,
    List.map_cons, List.map_nil, List.sum_cons, List.sum_nil]
  omega

/-! ## Reads (R172) -/

theorem readRegister_of_running (running : s.phase = .running) (a : BitVec 7) : s.readRegister a = s.registerValue a :=
  if_pos running

theorem registerValue_param (s : State) (k : Fin 4) :
    s.registerValue (BitVec.ofNat 7 (0x09 + k.val)) = s.host.params[k] := by
  fin_cases k <;> rfl

theorem registerValue_view (s : State) (k : Fin 8) :
    s.registerValue (BitVec.ofNat 7 (0x10 + k.val)) = s.host.views[k] := by
  fin_cases k <;> rfl

theorem registerValue_unlisted (s : State) (h : a = 0x0E#7 ∨ a = 0x0F#7 ∨ 0x1C ≤ a.toNat) :
    s.registerValue a = 0#16 := by
  rcases h with rfl | rfl | above
  · rfl
  · rfl
  · unfold State.registerValue
    split
    any_goals omega
    rfl

/-! ## Writes (R172, R181, R182) -/

theorem exec_attnWrite_of_running (running : s.phase = .running) :
    exec (.attnWrite w) s = .next { s with host := { s.host with
      stationCause := s.host.stationCause && !w.getLsbD 4, misuseCause := s.host.misuseCause && !w.getLsbD 5 } } :=
  congrArg Host.Outcome.next (if_pos running)

theorem exec_attnenWrite_of_running (running : s.phase = .running) :
    exec (.attnenWrite w) s = .next { s with host := { s.host with attnen := w.extractLsb' 0 6 } } :=
  congrArg Host.Outcome.next (if_pos running)

theorem paramAddress_param (k : Fin 4) : paramAddress (BitVec.ofNat 7 (9 + k.val)) = some k := by revert k; decide

theorem paramAddress_other (h : ¬ (0x09 ≤ a.toNat ∧ a.toNat ≤ 0x0C)) : paramAddress a = none := by
  unfold paramAddress
  split
  any_goals omega
  rfl

theorem exec_registerWrite_param (running : s.phase = .running) (k : Fin 4) :
    exec (.registerWrite (BitVec.ofNat 7 (9 + k.val)) w) s
      = .next { s with host := { s.host with params := s.host.params.set k w } } := by
  simp only [exec, execRegisterWrite, if_pos running, paramAddress_param]

theorem exec_registerWrite_other (running : s.phase = .running) (h : ¬ (0x09 ≤ a.toNat ∧ a.toNat ≤ 0x0C)) :
    exec (.registerWrite a w) s = .next s := by
  simp only [exec, execRegisterWrite, if_pos running, paramAddress_other h]

/-- R182: of a word written to ATTNEN the low six bits read back. -/
theorem enables_readBack (w : Word) : (w.extractLsb' 0 6).setWidth 16 = w &&& 0x3F#16 := by
  apply BitVec.eq_of_toNat_eq
  rw [BitVec.toNat_and, BitVec.toNat_setWidth, BitVec.extractLsb'_toNat]
  exact (Nat.mod_eq_of_lt (by omega)).trans (Nat.and_two_pow_sub_one_eq_mod w.toNat 6).symm

/-- Settles O22: each write by its own rule, and the line by the causes of R180. -/
theorem registerWritesAndAttention : Obligations.RegisterWritesAndAttention := by
  unfold Obligations.RegisterWritesAndAttention
  refine ⟨fun w s running => ⟨exec_attnWrite_of_running running, ⟨exec_attnenWrite_of_running running, ?_⟩,
    fun k => ⟨exec_registerWrite_param running k, ?_⟩, fun a => exec_registerWrite_other running⟩,
    fun s => ⟨?_, fun running => ?_⟩⟩
  · exact (if_pos running).trans (enables_readBack w)
  · exact (if_pos running).trans ((registerValue_param _ k).trans (Vector.getElem_set_self _))
  · rw [attnLine_iff, ringCause_iff, Channels.faultCause_iff, watchCause_iff, peerCause_iff]
  · rw [readRegister_of_running running]
    exact attnRegister_bit15 s

end Sys2Proof.HostRegisters
end

section
/-! SUPPORT. SPI transfers (R171, R174): the number that bits on SDI spell, what a transfer asks for, what stands on SDO, and
which row a write is. -/
namespace Sys2Proof.SpiTransfers

open Sys2Proof Sys2Proof.Machine

-- Each thread of the elaborator reserves 1 GB under the memory limit of the check.
set_option Elab.async false

variable {s : State} {control op code : Byte} {w : Word} {rest beyond : List Bool}

/-! ## Bits as a number -/

/-- Bits `k - 1` to 0 of a number, most significant first. -/
def lowBits (n : Nat) : Nat → List Bool
  | 0 => []
  | k + 1 => n.testBit k :: lowBits n k

/-- Read from a number already gathered, `k` more bits make it the high part. -/
theorem foldl_lowBits (n k m : Nat) : (lowBits n k).foldl (fun n b => 2 * n + bit b) m = m * 2 ^ k + n % 2 ^ k := by
  induction k generalizing m with
  | zero => simp [lowBits, Nat.mod_one]
  | succ k ih =>
    have top : bit (n.testBit k) = n / 2 ^ k % 2 := by
      rw [Nat.testBit_eq_decide_div_mod_eq]
      rcases Nat.mod_two_eq_zero_or_one (n / 2 ^ k) with h | h <;> rw [h] <;> rfl
    rw [lowBits, List.foldl_cons, ih, Nat.mod_pow_succ, top]
    ring

theorem natOfBits_lowBits (n k : Nat) : natOfBits (lowBits n k) = n % 2 ^ k := by
  rw [natOfBits, foldl_lowBits, Nat.zero_mul, Nat.zero_add]

theorem bitsOfByte_eq_lowBits (b : Byte) : bitsOfByte b = lowBits b.toNat 8 := rfl

/-- The high byte of a word goes before its low byte. -/
theorem natOfBits_word (w : Word) :
    natOfBits (bitsOfByte (w.extractLsb' 8 8) ++ bitsOfByte (w.extractLsb' 0 8)) = w.toNat := by
  simp only [bitsOfByte_eq_lowBits, natOfBits, List.foldl_append, foldl_lowBits, BitVec.extractLsb'_toNat]
  omega

/-! ## What a transfer asks for (R171) -/

/-- The address is the control byte without its bit 7. -/
theorem control_address (control : Byte) :
    BitVec.ofNat 7 (natOfBits ((bitsOfByte control).drop 1)) = control.extractLsb' 0 7 := by
  have low : (bitsOfByte control).drop 1 = lowBits control.toNat 7 := rfl
  apply BitVec.eq_of_toNat_eq
  simp [low, natOfBits_lowBits]

/-- R171: bit 7 of the control byte tells a write, which needs the sixteen bits of its word. -/
theorem spiTransfer_control (control : Byte) (rest : List Bool) : spiTransfer (bitsOfByte control ++ rest) =
    if control.getLsbD 7 then
      if rest.length < 16 then .discarded
      else .write (control.extractLsb' 0 7) (BitVec.ofNat 16 (natOfBits (rest.take 16)))
    else .read (control.extractLsb' 0 7) := by
  have long : (bitsOfByte control ++ rest).length = rest.length + 8 := rfl
  have byte : (bitsOfByte control ++ rest).take 8 = bitsOfByte control := rfl
  have top : (bitsOfByte control ++ rest).headD false = control.getLsbD 7 := rfl
  have word : ((bitsOfByte control ++ rest).take 24).drop 8 = rest.take 16 := rfl
  have short : rest.length + 8 < 24 ↔ rest.length < 16 := by omega
  rw [spiTransfer, if_neg (by omega), byte, top, word, long, control_address]
  simp only [short]

theorem spiTransfer_read (read : control.getLsbD 7 = false) (rest : List Bool) :
    spiTransfer (bitsOfByte control ++ rest) = .read (control.extractLsb' 0 7) := by
  rw [spiTransfer_control, read]
  rfl

theorem spiTransfer_short_write (write : control.getLsbD 7 = true) (short : rest.length < 16) :
    spiTransfer (bitsOfByte control ++ rest) = .discarded := by
  rw [spiTransfer_control, if_pos write, if_pos short]

/-- R171: bits beyond the 24th are ignored. -/
theorem spiTransfer_write (write : control.getLsbD 7 = true)
    (bits : rest = bitsOfByte (w.extractLsb' 8 8) ++ bitsOfByte (w.extractLsb' 0 8) ++ beyond) :
    spiTransfer (bitsOfByte control ++ rest) = .write (control.extractLsb' 0 7) w := by
  have word : rest.take 16 = bitsOfByte (w.extractLsb' 8 8) ++ bitsOfByte (w.extractLsb' 0 8) := by rw [bits]; rfl
  have long : ¬ rest.length < 16 := by rw [bits, List.length_append]; simp [bitsOfByte]
  rw [spiTransfer_control, if_pos write, if_neg long, word, natOfBits_word, BitVec.ofNat_toNat, BitVec.setWidth_eq]

theorem spiTransfer_no_control {short : List Bool} (h : short.length < 8) : spiTransfer short = .discarded := if_pos h

/-! ## SDO (R171) -/

theorem sdo_undriven (bits : List Bool) (falls : Nat) : s.sdo false bits falls = none := rfl

theorem sdo_driven (bits : List Bool) (falls : Nat) : (s.sdo true bits falls).isSome = true := by
  rw [State.sdo, Machine.sdo, if_pos rfl]
  cases spiTransfer (bits.take controlClocks) with
  | read addr => dsimp only; split <;> rfl
  | write addr value => rfl
  | discarded => rfl

/-- R171: the control byte alone decides that it is a read; from the eighth falling edge on the value's bits go out. -/
theorem sdo_read (read : control.getLsbD 7 = false) (rest : List Bool) {falls : Nat} (first : 8 ≤ falls)
    (last : falls < 24) : s.sdo true (bitsOfByte control ++ rest) falls =
      some ((s.readRegister (control.extractLsb' 0 7)).getLsbD (23 - falls)) := by
  have byte : (bitsOfByte control ++ rest).take controlClocks = bitsOfByte control ++ [] := rfl
  have inside : (controlClocks ≤ falls && falls < transferClocks) = true := by
    simp [controlClocks, transferClocks, first, last]
  simp only [State.sdo, Machine.sdo, byte, spiTransfer_read read, if_true, inside]
  rfl

theorem length_shiftedOut (value : Word) (clocks : Nat) :
    (shiftedOut value clocks).length = min 16 (clocks - 8) := by
  simp [shiftedOut, controlClocks]

theorem shiftedOut_getElem? (value : Word) {clocks k : Nat} (bits : k < 16) (shifted : k + 8 < clocks) :
    (shiftedOut value clocks)[k]? = some (value.getLsbD (15 - k)) := by
  have inside : k < min 16 (clocks - 8) := by omega
  rw [shiftedOut, controlClocks, List.getElem?_map, List.getElem?_range inside, Option.map_some]

/-! ## The row that a write is (R172, R174) -/

theorem lowByte_append (op code : Byte) : lowByte (op ++ code) = code := by
  exact BitVec.extractLsb'_append_eq_right

theorem highByte_append (op code : Byte) : highByte (op ++ code) = op := by
  exact BitVec.extractLsb'_append_eq_left

/-- R174: a write of CMD whose code names no command. -/
theorem rowOfWrite_unknown
    (h : ¬ (1 ≤ code.toNat ∧ code.toNat ≤ 0x0A ∨ 0x10 ≤ code.toNat ∧ code.toNat ≤ 0x14)) :
    rowOfWrite 0x08#7 (op ++ code) = .unknownCommand code op := by
  simp only [rowOfWrite, Config.addrCmd, if_true, lowByte_append, highByte_append]
  split
  any_goals omega
  rfl

theorem rowOfWrite_other {a : BitVec 7} (cmd : a ≠ 0x08#7) (attn : a ≠ 0x18#7) (attnen : a ≠ 0x19#7)
    (ringcons : a ≠ 0x1B#7) (w : Word) : rowOfWrite a w = .registerWrite a w := by
  rw [rowOfWrite, Config.addrCmd, if_neg cmd, Config.addrAttn, if_neg attn, Config.addrAttnen, if_neg attnen,
    Config.addrRingcons, if_neg ringcons]

/-! ## The host's side as a whole -/

/-- Settles O34: the registers one by one, then the transfer's bits, what it shifts out, and the row of its write. -/
theorem registersReadAsTheTableSays : Obligations.RegistersReadAsTheTableSays := by
  unfold Obligations.RegistersReadAsTheTableSays
  refine ⟨fun s running => ?registers, fun control rest => ?transfer, fun value clocks => ?shifted, fun op code => ?rows⟩
  case registers =>
    simp only [HostRegisters.readRegister_of_running running]
    refine ⟨rfl, rfl, rfl, rfl, rfl, ?station, rfl, fun check latched => ?resetCause, rfl, rfl,
      HostRegisters.registerValue_param s, HostRegisters.registerValue_view s, HostRegisters.toNat_attnRegister s,
      ?attnen, rfl, rfl, fun a => HostRegisters.registerValue_unlisted s⟩
    case station =>
      refine (HostRegisters.toNat_stationWord0 s).trans ?_
      rcases s.station.state with _ | state
      · rfl
      · cases state <;> rfl
    case resetCause =>
      refine (HostRegisters.toNat_resetCauseWord latched).trans ?_
      cases s.latch.cause <;> cases check <;> rfl
    case attnen => exact BitVec.toNat_setWidth_of_le (by decide)
  case transfer =>
    exact ⟨fun read => spiTransfer_read read rest, spiTransfer_short_write, fun w beyond => spiTransfer_write,
      fun s falls => ⟨sdo_undriven _ falls, sdo_driven _ falls, fun read first last => sdo_read read rest first last⟩,
      fun short => spiTransfer_no_control⟩
  case shifted => exact ⟨length_shiftedOut value clocks, fun k => shiftedOut_getElem? value⟩
  case rows =>
    refine ⟨?_, ?_, ?_, ?_, ?_, ?_, ?_, ?_, ?_, ?_, ?_, ?_, ?_, ?_, ?_, rowOfWrite_unknown, rfl, rfl, rfl,
      fun a cmd attn attnen ringcons => rowOfWrite_other cmd attn attnen ringcons _⟩
    all_goals
      rintro rfl
      simp only [rowOfWrite, lowByte_append, highByte_append]
      rfl

end Sys2Proof.SpiTransfers
end

section
/-! SUPPORT. The queue of waiting commands belongs to `step` alone: no operation of the machine writes it. For each
shared operation that the frames of the Laws do not cover, the queue after it. -/
namespace Sys2Proof.CommandQueue

open Sys2Proof Sys2Proof.Machine

-- Each thread of the elaborator reserves 1 GB under the memory limit of the check.
set_option Elab.async false

variable {s t u : State}

theorem pending_ite {c : Prop} [Decidable c] (yes : t.pending = s.pending) (no : u.pending = s.pending) :
    (if c then t else u).pending = s.pending := by
  split
  · exact yes
  · exact no

/-- Steps taken one after another for the members of a list leave the queue if each does. -/
theorem foldl_pending {α : Type} {f : State → α → State} (h : ∀ s a, (f s a).pending = s.pending) (l : List α)
    (s : State) : (l.foldl f s).pending = s.pending := by
  induction l generalizing s with
  | nil => rfl
  | cons a l ih => exact (ih (f s a)).trans (h s a)

/-! ## The part's own steps -/

@[simp] theorem settle_pending (s : State) : s.settle.pending = s.pending := (OwnSteps.ownLeaves_settle s).blocks.pending

/-- A row of a step of the part itself: if the step leaves what the own steps leave, the row leaves the queue. -/
theorem ownRow_pending {step : Option State} (h : ∀ t, step = some t → OwnSteps.OwnLeaves s t) :
    (s.ownRow step).pending = s.pending := by
  unfold State.ownRow
  cases step with
  | none => exact settle_pending s
  | some t => exact (settle_pending t).trans (h t rfl).blocks.pending

theorem ownLeaves_asking {p : Station} (h : s.asking p = some t) : OwnSteps.OwnLeaves s t := by
  obtain ⟨-, -, -, rfl⟩ := State.asking_spec h
  exact OwnSteps.ownLeaves_ask s p

theorem ownLeaves_descriptorEnd {c : Chan} (h : s.descriptorEnd c = some t) : OwnSteps.OwnLeaves s t := by
  obtain ⟨-, rfl⟩ := State.descriptorEnd_spec h
  exact OwnSteps.ownLeaves_complete s c _

theorem ownLeaves_leaveQueued (h : s.leaveQueued = some t) : OwnSteps.OwnLeaves s t := by
  obtain ⟨-, -, -, -, rfl⟩ := State.leaveQueued_spec h
  exact OwnSteps.ownLeaves_queueControl s .leave

/-! ## Resets, configuration and station states -/

@[simp] theorem applyWrite_pending (s : State) (a : Access) (e : AccessEnd) : (s.applyWrite a e).pending = s.pending :=
  pending_ite rfl rfl

@[simp] theorem applyCut_pending (s : State) (cut : List Bool) : (s.applyCut cut).pending = s.pending := by
  unfold State.applyCut
  split
  · rfl
  · exact pending_ite rfl rfl

@[simp] theorem beginStartReset_pending (s : State) (kind : StartResetKind) (cut : List Bool) :
    (s.beginStartReset kind cut).pending = s.pending := applyCut_pending s cut

@[simp] theorem softResetBlocks_pending (s : State) : s.softResetBlocks.pending = s.pending := pending_ite rfl rfl

@[simp] theorem finishConfigRead_pending (s : State) (answers : List (Option Byte)) :
    (s.finishConfigRead answers).pending = s.pending := rfl

@[simp] theorem endSession_pending (s : State) : s.endSession.pending = s.pending := by
  obtain ⟨w, h⟩ := PeerBus.clearNotices_frame s.clearPeers
  rw [State.endSession, h]
  rfl

@[simp] theorem enterJoining_pending (s : State) (inc : Byte) : (s.enterJoining inc).pending = s.pending := by
  have sequences (u : State) : u.clearSequences.pending = u.pending := by
    obtain ⟨x, h⟩ := PeerBus.clearSequences_frame u
    rw [h]
  simp [State.enterJoining, sequences]

@[simp] theorem enterLeaving_pending (s : State) : s.enterLeaving.pending = s.pending := by
  have asked (u : State) : u.clearAsked.pending = u.pending := by
    obtain ⟨x, h⟩ := PeerBus.foldl_modPeer_frame (fun q => { q with asked := false, askTimer := .stopped }) allStations u
    rw [State.clearAsked, h]
  simp [State.enterLeaving, asked]

/-! ## Isolation (R14, R126, R146) -/

@[simp] theorem isolateChannel_pending (s : State) (c : Chan) : (s.isolateChannel c).pending = s.pending := by
  unfold State.isolateChannel
  dsimp only
  split <;> rfl

@[simp] theorem endIsolated_pending (s : State) (c : Chan) : (s.endIsolated c).pending = s.pending :=
  pending_ite (State.complete_pending s c _) rfl

@[simp] theorem endIsolatedBelow_pending (s : State) (c : Chan) : (s.endIsolatedBelow c).pending = s.pending :=
  pending_ite (foldl_pending endIsolated_pending _ s) rfl

@[simp] theorem isolateEntry_pending (s : State) (v : Tag) : (s.isolateEntry v).pending = s.pending := by
  unfold State.isolateEntry
  split
  · rfl
  rename_i e _
  cases e.state with
  | waitingCredit | queued | sent => simp
  | loading | storing => rfl

/-- R14: the blocks are cleared, then the channels, the entries and again the channels are ended one by one. -/
@[simp] theorem isolate_pending (s : State) : s.isolate.pending = s.pending := by
  unfold State.isolate
  dsimp only
  rw [settle_pending, foldl_pending endIsolated_pending, foldl_pending isolateEntry_pending,
    foldl_pending isolateChannel_pending]
  obtain ⟨w, h⟩ := PeerBus.clearNotices_frame s.leaveBus.discardSlots.clearPeers
  rw [h]
  rfl

/-! ## ABORT (R121, R122, R142) -/

@[simp] theorem markAborting_pending (s : State) (c : Chan) : (s.markAborting c).pending = s.pending := by
  refine foldl_pending (fun s v => ?_) allTags s
  split
  · rfl
  · exact pending_ite (pending_ite (State.leaveWaitList_pending _ v _) rfl) rfl

@[simp] theorem abortEntry_pending (s : State) (c : Chan) (v : Tag) : (s.abortEntry c v).pending = s.pending := by
  unfold State.abortEntry
  split
  · rfl
  rename_i e _
  refine pending_ite ?_ rfl
  cases e.state with
  | waitingCredit => exact State.retire_pending s v _
  | queued => exact pending_ite rfl (by simp)
  | loading | sent | storing => rfl

@[simp] theorem abortRunning_pending (s : State) (c : Chan) : (s.abortRunning c).pending = s.pending := by
  have entries (u : State) : (u.abortEntries c).pending = u.pending :=
    (foldl_pending (fun s v => by simp) allTags _).trans (markAborting_pending u c)
  simp [State.abortRunning, entries]

@[simp] theorem abortCompleting_pending (s : State) (c : Chan) : (s.abortCompleting c).1.pending = s.pending := by
  unfold State.abortCompleting
  dsimp only
  split <;> rfl

@[simp] theorem abortChannel_pending (s : State) (c : Chan) : (s.abortChannel c).1.pending = s.pending := by
  unfold State.abortChannel
  dsimp only
  split
  case h_6 | h_7 => exact abortRunning_pending s c
  case h_12 => simp
  case h_13 => exact abortCompleting_pending s c
  all_goals rfl

/-! ## Replies, timeouts and loads (R59, R131, R136 to R141) -/

@[simp] theorem leaveForReply_pending (s : State) (v : Tag) (e : Entry) : (s.leaveForReply v e).pending = s.pending := by
  unfold State.leaveForReply
  split <;> simp

@[simp] theorem settleRead_pending (s : State) (v : Tag) (e : Entry) (payload : List Byte) :
    (s.settleRead v e payload).pending = s.pending := pending_ite (State.retire_pending s v _) rfl

@[simp] theorem settleNoCredit_pending (s : State) (v : Tag) (e : Entry) : (s.settleNoCredit v e).pending = s.pending :=
  pending_ite (State.retire_pending _ v _) (State.joinWaitList_pending _ v _)

@[simp] theorem takeReply_pending (s : State) (r : ReplyHeard) : (s.takeReply r).pending = s.pending := by
  unfold State.takeReply
  split
  · rfl
  refine pending_ite ?_ rfl
  unfold State.settleReply
  cases r.status with
  | done => exact pending_ite (by simp) (by simp)
  | refusedAccess | refusedRange | localError | noCredit => simp

@[simp] theorem expireReply_pending (s : State) (v : Tag) (e : Entry) : (s.expireReply v e).pending = s.pending :=
  pending_ite (State.retire_pending s v _) (pending_ite (State.joinWaitList_pending s v _) (State.retire_pending s v _))

@[simp] theorem endLoad_pending (s : State) (v : Tag) (e : Entry) (o : AccessEnd) :
    (s.endLoad v e o).pending = s.pending := by
  unfold State.endLoad
  split
  · exact State.retire_pending s v _
  · exact State.retire_pending s v _
  · exact pending_ite (State.retire_pending s v _) (State.joinWaitList_pending _ v _)

/-! ## Peer cleanup and the updates by what is heard (R38 to R48) -/

@[simp] theorem cleanupEntry_pending (s : State) (why : FaultCode) (v : Tag) (e : Entry) :
    (s.cleanupEntry why v e).pending = s.pending := by
  unfold State.cleanupEntry
  cases e.state with
  | waitingCredit => simp
  | queued => exact (State.retire_pending _ v _).trans (pending_ite rfl rfl)
  | sent => exact State.retire_pending s v _
  | loading | storing => rfl

@[simp] theorem cleanup_pending (s : State) (p : Station) (why : FaultCode) : (s.cleanup p why).pending = s.pending := by
  have entries : (State.cleanupEntries p why 64 s).pending = s.pending :=
    PeerBus.cleanupEntries_keeps (P := fun t => t.pending = s.pending) (fun t h => (settle_pending t).trans h)
      (fun t why v e _ h => (cleanupEntry_pending t why v e).trans h) p why 64 rfl
  obtain ⟨x, frame⟩ := PeerTable.cleanup_frame s p why
  rw [frame]
  generalize State.cleanupEntries p why 64 s = w at entries
  exact entries

@[simp] theorem failWaitsOn_pending (s : State) (p : Station) : (s.failWaitsOn p).pending = s.pending := by
  refine foldl_pending (fun s c => ?_) allChans s
  split
  · exact pending_ite (State.waitLost_pending s c p) rfl
  · rfl

@[simp] theorem presenceUpdate_pending (s : State) (p : Station) (inc : Byte) (mark : Option Word) (isJoin : Bool) :
    (s.presenceUpdate p inc mark isJoin).pending = s.pending := by
  unfold State.presenceUpdate
  split
  · rfl
  · rfl
  · exact pending_ite rfl (by simp [State.hearPresent])

@[simp] theorem leaveUpdate_pending (s : State) (p : Station) (inc : Byte) (mark : Word) :
    (s.leaveUpdate p inc mark).pending = s.pending := by
  unfold State.leaveUpdate
  exact pending_ite (by simp) (by simp)

@[simp] theorem silenceUpdate_pending (s : State) (p : Station) : (s.silenceUpdate p).pending = s.pending := by
  simp [State.silenceUpdate]

/-! ## What is delivered (R23) -/

@[simp] theorem takeAsk_pending (s : State) (p : Station) (n : Nat) : (s.takeAsk p n).pending = s.pending :=
  pending_ite rfl (pending_ite (pending_ite rfl rfl) rfl)

@[simp] theorem takeGrant_pending (s : State) (p : Station) (n : Nat) (echo : Byte) :
    (s.takeGrant p n echo).pending = s.pending := pending_ite rfl rfl

@[simp] theorem deliverReply_pending (s : State) (p : Station) (inc : Byte) (kind : ReqKind) (tag seq echo status : Byte)
    (payload : List Byte) : (s.deliverReply p inc kind tag seq echo status payload).pending = s.pending := by
  unfold State.deliverReply
  split <;> simp

/-! ## The inbound server (chapter 5) -/

@[simp] theorem replySlot_pending (s : State) (i : SlotNo) (status : ReplyStatus) :
    (s.replySlot i status).pending = s.pending := by
  unfold State.replySlot
  split <;> rfl

@[simp] theorem recordServed_pending (s : State) (x : Slot) (status : ReplyStatus) :
    (s.recordServed x status).pending = s.pending := pending_ite rfl rfl

@[simp] theorem notice_pending (s : State) (x : Slot) (status : ReplyStatus) : (s.notice x status).pending = s.pending :=
  pending_ite rfl rfl

@[simp] theorem checkWindow_pending (s : State) (i : SlotNo) (x : Slot) : (s.checkWindow i x).pending = s.pending := by
  have refused (status : ReplyStatus) : (s.refuseSlot i x status).pending = s.pending := by simp [State.refuseSlot]
  exact pending_ite (refused _) (pending_ite (refused _) rfl)

@[simp] theorem checkArrival_pending (s : State) (i : SlotNo) (x : Slot) : (s.checkArrival i x).pending = s.pending := by
  unfold State.checkArrival
  split
  · exact checkWindow_pending s i x
  split
  · exact replySlot_pending s i _
  split
  · rfl
  · exact checkWindow_pending s i x

@[simp] theorem takeRequest_pending (s : State) (r : Request) : (s.takeRequest r).pending = s.pending := by
  refine pending_ite ?_ (pending_ite rfl rfl)
  split
  · exact checkArrival_pending _ _ _
  · rfl

@[simp] theorem endSlotAccess_pending (s : State) (i : SlotNo) (first : Nat) (e : AccessEnd) :
    (s.endSlotAccess i first e).pending = s.pending := by
  unfold State.endSlotAccess
  split
  · rfl
  · refine (foldl_pending (fun s j => replySlot_pending s j _) _ _).trans ?_
    simp

/-! ## The ends of a channel's accesses (R109, R110, R167, R168) -/

@[simp] theorem beginDescriptor_pending (s : State) (c : Chan) (d : List Byte) :
    (s.beginDescriptor c d).pending = s.pending := pending_ite (State.retestReady_pending _) rfl

@[simp] theorem endFetch_pending (s : State) (c : Chan) (data : Option (List Byte)) :
    (s.endFetch c data).pending = s.pending := by
  refine pending_ite rfl ?_
  cases data with
  | none => cases (s.chan c).flag <;> simp
  | some d =>
      cases (s.chan c).flag with
      | aborting | stopping => simp
      | none => exact pending_ite (by simp) (by simp)

@[simp] theorem endRecord_pending (s : State) (c : Chan) (ok : Bool) : (s.endRecord c ok).pending = s.pending :=
  pending_ite (pending_ite (by simp) (by simp [State.loseRecord])) rfl

/-! ## Transmission (sections 2.5 and 2.6) -/

@[simp] theorem send_pending (s : State) (repliesOnly : Bool) : (s.send repliesOnly).pending = s.pending := by
  unfold State.send
  split
  · rfl
  refine pending_ite rfl ?_
  split
  · rfl
  unfold State.sendRequest
  split
  · rfl
  split <;> rfl

@[simp] theorem endTransmission_pending (s : State) (x : Transmission) : (s.endTransmission x).pending = s.pending := by
  refine pending_ite rfl ?_
  unfold State.reportSent
  split
  case h_1 => split <;> rfl
  case h_2 => exact endSession_pending _
  all_goals rfl

@[simp] theorem returnToQueue_pending (s : State) (item : Outgoing) : (s.returnToQueue item).pending = s.pending := by
  unfold State.returnToQueue
  split
  · rfl
  · rfl
  split
  · rfl
  · exact pending_ite (State.retire_pending _ _ _) rfl

@[simp] theorem clash_pending (s : State) (x : Transmission) : (s.clash x).pending = s.pending :=
  pending_ite (isolate_pending _) (pending_ite rfl (returnToQueue_pending _ _))

end Sys2Proof.CommandQueue
end

section
/-! SUPPORT. From the operations to the commands: every command answers a next state and leaves the queue; a step takes the
command at its front. -/
namespace Sys2Proof.CommandQueue

open Sys2Proof Sys2Proof.Machine

-- Each thread of the elaborator reserves 1 GB under the memory limit of the check.
set_option Elab.async false

variable {s : State}

/-! ## The shapes that meanings have -/

/-- A command taken by a write of CMD leaves the queue if its decision does. -/
theorem takeCommand_pending {code operand : Byte} {decision : State → State × ResultCode}
    (h : ∀ u : State, (decision u).1.pending = u.pending) :
    (s.takeCommand code operand decision).pending = s.pending := by
  by_cases running : s.phase = .running
  · rw [State.takeCommand_running running, State.answer_pending, h]
    rfl
  · rw [State.takeCommand_silent running]

/-- A command that one station state takes. -/
theorem inStateOnly_pending {st : StationState} {decision : State → State × ResultCode}
    (h : (decision s).1.pending = s.pending) : (s.inStateOnly st decision).1.pending = s.pending :=
  PeerBus.inStateOnly_keeps (P := fun t => t.pending = s.pending) (fun _ => h) rfl

/-- A message heard (R22) leaves the queue if its delivery does. -/
theorem hearFrom_pending {source : Byte} {ok : Bool} {take : Station → State → State}
    (h : ∀ (p : Station) (u : State), (take p u).pending = u.pending) : (s.hearFrom source ok take).pending = s.pending := by
  unfold State.hearFrom
  refine pending_ite rfl (pending_ite rfl (pending_ite (isolate_pending s) ?_))
  split
  · rfl
  · exact pending_ite ((settle_pending _).trans (h _ _)) rfl

/-- The end of an access (R162) leaves the queue if its report does. -/
theorem finishAccess_pending {cur : CurrentAccess} {e : AccessEnd} {report : State → State}
    (h : ∀ u : State, (report u).pending = u.pending) : (s.finishAccess cur e report).pending = s.pending := by
  have wrote := applyWrite_pending s cur.access e
  exact (settle_pending _).trans (pending_ite (s := s) wrote ((h _).trans wrote))

/-! ## Every command -/

/-- Every meaning answers a next state, and what it is made of leaves the queue. -/
theorem exec_next_pending (c : Instr) (s : State) : ∃ t, Machine.exec c s = .next t ∧ t.pending = s.pending := by
  cases c <;> refine ⟨_, rfl, ?_⟩
  case powerOn | resetPinAssert => exact applyCut_pending s _
  case resetEnd => split <;> rfl
  case configurationReadEnd => exact pending_ite rfl rfl
  case join => exact takeCommand_pending fun u => inStateOnly_pending (by split <;> simp)
  case leave => exact takeCommand_pending fun u => inStateOnly_pending (by split <;> simp)
  case clearIsolation | setRing => exact takeCommand_pending fun u => inStateOnly_pending (by split <;> rfl)
  case softReset => exact takeCommand_pending softResetBlocks_pending
  case setWindow =>
    refine takeCommand_pending fun u => inStateOnly_pending ?_
    split
    · split <;> rfl
    · rfl
  case start =>
    refine takeCommand_pending fun u => ?_
    split
    · rfl
    split
    · rfl
    split
    · rfl
    split
    · rfl
    split
    · simp
    · rfl
  case abort => exact takeCommand_pending fun u => by split; exacts [rfl, abortChannel_pending u _]
  case clear =>
    refine takeCommand_pending fun u => ?_
    split
    · rfl
    · split <;> rfl
  case advanceMark => exact takeCommand_pending fun u => inStateOnly_pending (by simp)
  case readChannel =>
    refine takeCommand_pending fun u => ?_
    split
    · rfl
    · split <;> rfl
  case readPeer | readWindow | readWatch => exact takeCommand_pending fun u => by split <;> rfl
  case readPeerChanges => exact takeCommand_pending fun u => rfl
  case unknownCommand => exact pending_ite rfl (takeCommand_pending fun u => rfl)
  case consumerWrite => exact pending_ite (pending_ite (by simp) rfl) rfl
  case attnWrite | attnenWrite => exact pending_ite rfl rfl
  case registerWrite => exact pending_ite (by split <;> rfl) rfl
  case activityBegin | badCheckActivity | sourceNOrHigherHeard => exact pending_ite rfl rfl
  case malformedMessage => exact hearFrom_pending fun p u => rfl
  case ownNumberHeard => exact pending_ite (pending_ite rfl (isolate_pending s)) rfl
  case overheardMessage => exact pending_ite rfl (hearFrom_pending fun p u => presenceUpdate_pending u p _ _ _)
  case joinHeard | presenceHeard | leaveHeard | askHeard | grantHeard | writeHeard | readHeard | ackHeard | dataHeard =>
    exact hearFrom_pending fun p u => by simp
  case granting => exact ownRow_pending fun _ => OwnSteps.ownLeaves_granting
  case leaveQueued => exact ownRow_pending fun _ => ownLeaves_leaveQueued
  case asking => exact ownRow_pending fun _ => ownLeaves_asking
  case creditHanding => exact ownRow_pending fun _ => OwnSteps.ownLeaves_creditHanding
  case entryAllocation => exact ownRow_pending fun _ => OwnSteps.ownLeaves_entryAllocation
  case descriptorEnd => exact ownRow_pending fun _ => ownLeaves_descriptorEnd
  case accessGrant => exact ownRow_pending fun _ => OwnSteps.ownLeaves_accessGrant
  case recordWriteIssue => exact ownRow_pending fun _ => OwnSteps.ownLeaves_recordWriteIssue
  case busSlotStart | coldGuardExpiry =>
    split
    · rfl
    · exact pending_ite (by simp) rfl
  case transmissionEnd | transmissionClash => split <;> simp
  case joinListenTimerExpiry | presenceTimerExpiry | silenceTimerExpiry | waitTimerExpiry =>
    exact pending_ite (by simp) rfl
  case askTimerExpiry => exact pending_ite (pending_ite (by simp) (by simp)) rfl
  case replyTimerExpiry =>
    split
    · rfl
    · exact pending_ite (by simp) rfl
  case descriptorFetchEnd =>
    split
    · rfl
    split
    case h_1 => exact finishAccess_pending fun u => endFetch_pending u _ _
    all_goals rfl
  case loadEnd =>
    split
    · rfl
    split
    case h_1 =>
      refine finishAccess_pending fun u => ?_
      split
      · exact pending_ite (endLoad_pending u _ _ _) rfl
      · rfl
    all_goals rfl
  case storeEnd =>
    split
    · rfl
    split
    case h_1 =>
      refine finishAccess_pending fun u => ?_
      split
      · exact pending_ite (State.retire_pending u _ _) rfl
      · rfl
    all_goals rfl
  case inboundAccessEnd =>
    split
    · rfl
    split
    case h_1 | h_2 => exact finishAccess_pending fun u => endSlotAccess_pending u _ _ _
    all_goals rfl
  case recordWriteEnd =>
    split
    · rfl
    split
    case h_1 => exact finishAccess_pending fun u => endRecord_pending u _ _
    all_goals rfl

/-- Settles O2: no arm of `exec` faults or refuses, and the operations that a meaning is made of leave the queue. -/
theorem everyCommandAnswersAndLeavesTheQueue : Obligations.EveryCommandAnswersAndLeavesTheQueue := exec_next_pending

/-! ## A step -/

theorem step_of_front {c : Instr} {rest : List Instr} (front : s.pending = c :: rest) :
    Machine.step s = Machine.exec c { s with pending := rest } := by
  simp only [Machine.step, front]

theorem step_of_empty (empty : s.pending = []) : Machine.step s = .next s := by
  simp only [Machine.step, empty]

/-- Settles O1, by the two cases of the queue. -/
theorem stepRunsTheFrontCommand : Obligations.StepRunsTheFrontCommand :=
  ⟨fun _ _ _ => step_of_front, fun _ => step_of_empty⟩

end Sys2Proof.CommandQueue
end

section
/-! SUPPORT. The parts of the state that only named commands change (R2, R4, R8, R68, R86, R164, R165, R172, R176), and what
the part's own steps, the operations on peers, entries and channels, and the service of requests leave of them. -/
namespace Sys2Proof.Scope

open Sys2Proof Sys2Proof.Machine Sys2Proof.Safety OwnSteps

-- Each thread of the elaborator reserves 1 GB under the memory limit of the check.
set_option Elab.async false

/-! ## Parts of the state -/

/-- A part of the state that only named commands change. -/
inductive Part where
  | bytes | cause | windows | notices | incarnation | config | producer | consumer | params | attnen | views | answer
  | slots | memory | station
deriving DecidableEq

/-- The bus interface, but for what is queued other than a LEAVE; what is being sent may be withdrawn. -/
structure Quiet (b b' : BusInterface) : Prop where
  item : b'.transmit.map (·.item) = b.transmit.map (·.item) := by rfl
  leave : .leave ∈ b'.controlQueue → .leave ∈ b.controlQueue := by exact id

/-- The station state stays, and the transmitter's invariant with it (R7, R11). -/
def StationKept (s t : State) : Prop := t.station.state = s.station.state ∧ (BusKept s → BusKept t)

variable {s t u : State} {l : List Part} {b b' b'' : BusInterface}

theorem Quiet.refl (b : BusInterface) : Quiet b b := {}

theorem Quiet.of_eq (h : b' = b) : Quiet b b' := h ▸ .refl b

theorem Quiet.trans (h : Quiet b b') (h' : Quiet b' b'') : Quiet b b'' := ⟨h'.item.trans h.item, h.leave ∘ h'.leave⟩

theorem leavePending_iff : s.leavePending = true ↔
    .leave ∈ s.bus.controlQueue ∨ s.bus.transmit.map (·.item) = some (.control .leave) := by
  simp [State.leavePending]

/-- The transmitter's invariant reads the phase, the station state and the bus interface. -/
theorem busKept_of_quiet (bus : Quiet s.bus t.bus) (phase : t.phase = s.phase) (station : t.station.state = s.station.state)
    (kept : BusKept s) : BusKept t where
  transmits sending := station ▸ kept.transmits fun idle => sending (by simpa [idle] using bus.item)
  leave pending := station ▸ kept.leave
    (leavePending_iff.2 ((leavePending_iff.1 pending).imp bus.leave fun h => bus.item.symm.trans h))
  silent silent := station.trans (kept.silent (phase ▸ silent))

theorem stationKept_of_quiet (bus : Quiet s.bus t.bus) (phase : t.phase = s.phase)
    (station : t.station.state = s.station.state) : StationKept s t := ⟨station, busKept_of_quiet bus phase station⟩

/-- From `s` to `t` no part changes that is not in `l`; a notice may become idle, and a slot FREE. -/
structure Leaves (l : List Part) (s t : State) : Prop where
  bytes : .bytes ∈ l ∨ t.latch.bytes = s.latch.bytes ∧ t.latch.check = s.latch.check := by exact .inr ⟨rfl, rfl⟩
  cause : .cause ∈ l ∨ t.latch.cause = s.latch.cause := by exact .inr rfl
  windows : .windows ∈ l ∨ ∀ w, { t.window w with notice := none } = { s.window w with notice := none } := by
    exact .inr fun _ => rfl
  notices : .notices ∈ l ∨ ∀ w n, (t.window w).notice = some n → (s.window w).notice = some n := by
    exact .inr fun _ _ => id
  incarnation : .incarnation ∈ l ∨ t.station.incarnation = s.station.incarnation := by exact .inr rfl
  config : .config ∈ l ∨ t.ring.config = s.ring.config := by exact .inr rfl
  producer : .producer ∈ l ∨ t.ring.producer = s.ring.producer := by exact .inr rfl
  consumer : .consumer ∈ l ∨ t.ring.consumer = s.ring.consumer := by exact .inr rfl
  params : .params ∈ l ∨ t.host.params = s.host.params := by exact .inr rfl
  attnen : .attnen ∈ l ∨ t.host.attnen = s.host.attnen := by exact .inr rfl
  views : .views ∈ l ∨ t.host.views = s.host.views := by exact .inr rfl
  answer : .answer ∈ l ∨ t.host.cmd = s.host.cmd ∧ t.host.result = s.host.result := by exact .inr ⟨rfl, rfl⟩
  slots : .slots ∈ l ∨ ∀ i, s.slot i = none → t.slot i = none := by exact .inr fun _ => id
  memory : .memory ∈ l ∨ t.written = s.written := by exact .inr rfl
  station : .station ∈ l ∨ StationKept s t := by exact .inr (stationKept_of_quiet (.of_eq rfl) rfl rfl)

theorem Leaves.refl (s : State) : Leaves l s s := {}

theorem Leaves.trans (h : Leaves l s t) (h' : Leaves l t u) : Leaves l s u where
  bytes := h.bytes.elim .inl fun a => h'.bytes.imp_right fun a' => ⟨a'.1.trans a.1, a'.2.trans a.2⟩
  cause := h.cause.elim .inl fun a => h'.cause.imp_right fun a' => a'.trans a
  windows := h.windows.elim .inl fun a => h'.windows.imp_right fun a' w => (a' w).trans (a w)
  notices := h.notices.elim .inl fun a => h'.notices.imp_right fun a' w n => a w n ∘ a' w n
  incarnation := h.incarnation.elim .inl fun a => h'.incarnation.imp_right fun a' => a'.trans a
  config := h.config.elim .inl fun a => h'.config.imp_right fun a' => a'.trans a
  producer := h.producer.elim .inl fun a => h'.producer.imp_right fun a' => a'.trans a
  consumer := h.consumer.elim .inl fun a => h'.consumer.imp_right fun a' => a'.trans a
  params := h.params.elim .inl fun a => h'.params.imp_right fun a' => a'.trans a
  attnen := h.attnen.elim .inl fun a => h'.attnen.imp_right fun a' => a'.trans a
  views := h.views.elim .inl fun a => h'.views.imp_right fun a' => a'.trans a
  answer := h.answer.elim .inl fun a => h'.answer.imp_right fun a' => ⟨a'.1.trans a.1, a'.2.trans a.2⟩
  slots := h.slots.elim .inl fun a => h'.slots.imp_right fun a' i => a' i ∘ a i
  memory := h.memory.elim .inl fun a => h'.memory.imp_right fun a' => a'.trans a
  station := h.station.elim .inl fun a => h'.station.imp_right fun a' => ⟨a'.1.trans a.1, a'.2 ∘ a.2⟩

theorem leaves_foldl {α : Type} {f : State → α → State} (h : ∀ s a, Leaves l s (f s a)) (xs : List α) (s : State) :
    Leaves l s (xs.foldl f s) := by
  induction xs generalizing s with
  | nil => exact .refl s
  | cons a xs ih => exact (h s a).trans (ih (f s a))

theorem leaves_ite {c : Prop} [Decidable c] (yes : Leaves l s t) (no : Leaves l s u) : Leaves l s (if c then t else u) :=
  iteInduction (fun _ => yes) fun _ => no

/-- A change of the blocks that hold no part, and of the bus interface but for a LEAVE. -/
theorem Leaves.of_blocks (bus : Quiet s.bus t.bus := by exact .of_eq (by simp)) (phase : t.phase = s.phase := by simp)
    (latch : t.latch = s.latch := by simp) (station : t.station = s.station := by simp)
    (windows : t.windows = s.windows := by simp) (host : t.host = s.host := by simp)
    (written : t.written = s.written := by simp) (inbound : t.inbound = s.inbound := by simp)
    (config : t.ring.config = s.ring.config := by simp) (producer : t.ring.producer = s.ring.producer := by simp)
    (consumer : t.ring.consumer = s.ring.consumer := by simp) : Leaves l s t where
  bytes := .inr (by rw [latch]; exact ⟨rfl, rfl⟩)
  cause := .inr (by rw [latch])
  windows := .inr fun w => by rw [State.window, State.window, windows]
  notices := .inr fun w n => by rw [State.window, State.window, windows]; exact id
  incarnation := .inr (by rw [station])
  config := .inr config
  producer := .inr producer
  consumer := .inr consumer
  params := .inr (by rw [host])
  attnen := .inr (by rw [host])
  views := .inr (by rw [host])
  answer := .inr (by rw [host]; exact ⟨rfl, rfl⟩)
  slots := .inr fun i => by rw [State.slot, State.slot, inbound]; exact id
  memory := .inr written
  station := .inr (stationKept_of_quiet bus phase (by rw [station]))

/-- What the part's own steps leave, if no LEAVE is queued but in LEAVING. -/
theorem Leaves.of_own (h : OwnLeaves s t)
    (leave : .leave ∈ t.bus.controlQueue → .leave ∈ s.bus.controlQueue ∨ s.station.state = some .leaving := by
      exact fun h => .inl (by simpa using h)) : Leaves l s t where
  bytes := .inr (by rw [h.blocks.latch]; exact ⟨rfl, rfl⟩)
  cause := .inr (by rw [h.blocks.latch])
  windows := .inr fun w => by rw [State.window, State.window, h.blocks.windows]
  notices := .inr fun w n => by rw [State.window, State.window, h.blocks.windows]; exact id
  incarnation := .inr (by rw [h.blocks.station])
  config := .inr h.ring.config
  producer := .inr h.ring.producer
  consumer := .inr h.ring.consumer
  params := .inr (by rw [h.blocks.host])
  attnen := .inr (by rw [h.blocks.host])
  views := .inr (by rw [h.blocks.host])
  answer := .inr (by rw [h.blocks.host]; exact ⟨rfl, rfl⟩)
  slots := .inr fun i => Credits.slot_none_of_left (h.slot i)
  memory := .inr h.blocks.written
  station := .inr ⟨by rw [h.blocks.station], fun kept => {
    transmits := fun sending => by
      rw [h.blocks.station]
      exact kept.transmits (h.line.transmit ▸ sending)
    leave := fun pending => by
      rw [h.blocks.station]
      rcases leavePending_iff.1 pending with queued | sending
      · exact (leave queued).elim (fun before => kept.leave (leavePending_iff.2 (.inl before))) id
      · exact kept.leave (leavePending_iff.2 (.inr (h.line.transmit ▸ sending)))
    silent := fun silent => by
      rw [h.blocks.station]
      exact kept.silent (h.blocks.phase ▸ silent) }⟩

/-! ## The control queue: only LEAVE_QUEUED queues a LEAVE -/

theorem quiet_queueControl (s : State) {c : Control} (h : c ≠ .leave) : Quiet s.bus (s.queueControl c).bus where
  leave queued := (PeerBus.mem_coalesce queued).resolve_right fun e => h e.symm

theorem quiet_queuePresence (s : State) : Quiet s.bus s.queuePresence.bus := by
  unfold State.queuePresence
  split
  · exact .refl _
  · exact quiet_queueControl s (by decide)

theorem quiet_advanceMark (s : State) : Quiet s.bus s.advanceMark.bus := by
  simp only [State.advanceMark]
  split
  · exact quiet_queuePresence { s with marks := { s.marks with own := s.marks.own + 1#16 } }
  · exact .refl _

theorem quiet_leaveCompleting (s : State) (c : Chan) : Quiet s.bus (s.leaveCompleting c).bus := by
  simp only [State.leaveCompleting]
  split
  · rw [State.chainOrIdle_bus]
    split
    · exact quiet_advanceMark (s.modChan c _)
    · exact .refl _
  · rw [State.chainOrIdle_bus]
    exact .refl _
  all_goals exact .refl _

theorem quiet_complete (s : State) (c : Chan) (status : PendingStatus) : Quiet s.bus (s.complete c status).bus := by
  simp only [State.complete]
  split
  · rw [State.testRecordWrite_bus]
    exact .refl _
  · exact quiet_leaveCompleting (s.setChan c _) c

theorem quiet_takeReport (s : State) (c : Chan) (r : WaitReport) : Quiet s.bus (s.takeReport c r).bus := by
  cases r with
  | satisfied => exact quiet_complete ((s.setWait c none).modChan c _) c .done
  | lost p => exact quiet_complete ((s.setWait c none).modChan c _) c .faulted
  | still => exact .refl _

theorem quiet_deliverReports (fuel : Nat) (reports : List (Chan × WaitReport)) (s : State) :
    Quiet s.bus (State.deliverReports fuel reports s).bus := by
  induction fuel generalizing reports s with
  | zero => exact .refl _
  | succ n ih =>
    cases reports with
    | nil => exact .refl _
    | cons r rest =>
      exact ((quiet_takeReport s r.1 r.2).trans (.of_eq (by simp))).trans (ih _ _)

/-! ## The part's own steps -/

theorem leaves_queuePresence (s : State) : Leaves l s s.queuePresence := .of_blocks (quiet_queuePresence s)

theorem leaves_advanceMark (s : State) : Leaves l s s.advanceMark := .of_blocks (quiet_advanceMark s)

theorem leaves_leaveCompleting (s : State) (c : Chan) : Leaves l s (s.leaveCompleting c) :=
  .of_blocks (quiet_leaveCompleting s c)

theorem leaves_complete (s : State) (c : Chan) (status : PendingStatus) : Leaves l s (s.complete c status) :=
  .of_own (ownLeaves_complete s c status) fun h => .inl ((quiet_complete s c status).leave h)

theorem leaves_failChannel (s : State) (c : Chan) (code : FaultCode) (p : Option Station) :
    Leaves l s (s.failChannel c code p) :=
  .of_own (ownLeaves_failChannel s c code p) fun h => .inl ((quiet_complete (s.modChan c _) c .faulted).leave h)

theorem leaves_waitLost (s : State) (c : Chan) (p : Station) : Leaves l s (s.waitLost c p) :=
  .of_own (ownLeaves_waitLost s c p) fun h => .inl ((quiet_takeReport s c (.lost p)).leave h)

theorem leaves_testRecordWrite (s : State) : Leaves l s s.testRecordWrite := .of_own (ownLeaves_testRecordWrite s)

theorem leaves_retire (s : State) (v : Tag) (o : PieceOutcome) : Leaves l s (s.retire v o) := .of_blocks

theorem leaves_ask (s : State) (p : Station) : Leaves l s (s.ask p) :=
  .of_own (ownLeaves_ask s p) fun h => .inl ((quiet_queueControl (s.modPeer p _) (by simp)).leave h)

theorem leaves_asking {p : Station} (h : s.asking p = some t) : Leaves l s t := by
  obtain ⟨-, -, -, rfl⟩ := State.asking_spec h
  exact leaves_ask s p

theorem leaves_granting (h : s.granting = some t) : Leaves l s t := by
  refine .of_own (ownLeaves_granting h) ?_
  obtain ⟨a, rest, -, -, -, g, -, rfl⟩ := State.granting_spec h
  intro queued
  change _ ∈ coalesce s.bus.controlQueue (.grant a.peer g _) at queued
  exact .inl ((PeerBus.mem_coalesce queued).resolve_right nofun)

/-- R11: a LEAVE is queued in LEAVING. -/
theorem leaves_leaveQueued (h : s.leaveQueued = some t) : Leaves l s t := by
  refine .of_own (CommandQueue.ownLeaves_leaveQueued h) fun _ => .inr ?_
  obtain ⟨leaving, -⟩ := State.leaveQueued_spec h
  simpa [State.inState] using leaving

theorem leaves_accessGrant (h : s.accessGrant = some t) : Leaves l s t := by
  refine .of_own (ownLeaves_accessGrant h) ?_
  obtain ⟨-, ⟨a, rest, -, -, rfl⟩ | ⟨b, rest, -, -, rfl⟩⟩ := State.accessGrant_spec h
  · exact .inl
  · exact fun queued => .inl (by simpa using queued)

theorem leaves_creditHanding {p : Station} (h : s.creditHanding p = some t) : Leaves l s t := by
  refine .of_own (ownLeaves_creditHanding h) ?_
  obtain ⟨u, rest, e, seq, next, -, -, -, -, -, -, rfl⟩ := State.creditHanding_spec h
  exact .inl

theorem leaves_entryAllocation (h : s.entryAllocation = some t) : Leaves l s t := by
  refine .of_own (ownLeaves_entryAllocation h) ?_
  obtain ⟨c, rest, u, -, -, -, rfl⟩ := State.entryAllocation_spec h
  exact fun queued => .inl (by simpa using queued)

theorem leaves_recordWriteIssue (h : s.recordWriteIssue = some t) : Leaves l s t := by
  refine .of_own (ownLeaves_recordWriteIssue h) ?_
  obtain ⟨c, rest, r, -, -, -, -, rfl⟩ := State.recordWriteIssue_spec h
  exact .inl

theorem leaves_descriptorEnd {c : Chan} (h : s.descriptorEnd c = some t) : Leaves l s t := by
  obtain ⟨-, rfl⟩ := State.descriptorEnd_spec h
  exact leaves_complete s c _

theorem leaves_ownStep (h : s.ownStep = some t) : Leaves l s t := by
  rcases State.ownStep_cases h with ⟨v, h⟩ | h | ⟨c, h⟩ | h | ⟨p, h⟩ | ⟨p, h⟩ | h | h | h | h
  · obtain ⟨e, reason, -, -, -, rfl⟩ := State.absentRetire_spec h
    exact .of_blocks
  · obtain ⟨-, rfl⟩ := State.judgeWaits_spec h
    have left : Quiet s.bus (s.leaveWaitSet s.waitReports).bus := .of_eq (by simp)
    exact .of_own ((ownLeaves_leaveWaitSet s _).trans (ownLeaves_deliverReports 8 _ _))
      fun queued => .inl ((left.trans (quiet_deliverReports 8 _ _)).leave queued)
  · exact leaves_descriptorEnd h
  · exact leaves_recordWriteIssue h
  · exact leaves_creditHanding h
  · exact leaves_asking h
  · exact leaves_entryAllocation h
  · exact leaves_granting h
  · exact leaves_leaveQueued h
  · exact leaves_accessGrant h

theorem leaves_settle (s : State) : Leaves l s s.settle :=
  State.settle_rel .refl (fun _ _ _ => .trans) (fun _ _ => leaves_ownStep) s

theorem Leaves.settle (h : Leaves l s t) : Leaves l s t.settle := h.trans (leaves_settle t)

/-- A row of a step of the part itself. -/
theorem leaves_ownRow {step : Option State} (h : ∀ t, step = some t → Leaves l s t) : Leaves l s (s.ownRow step) := by
  unfold State.ownRow
  cases step with
  | none => exact leaves_settle s
  | some t => exact (h t rfl).settle

/-! ## Entries: replies, timeouts, aborts (R59, R131, R136 to R142) -/

theorem leaves_leaveForReply (s : State) (v : Tag) (e : Entry) : Leaves l s (s.leaveForReply v e) := by
  unfold State.leaveForReply
  split
  case h_2 => exact .of_blocks {}
  all_goals exact .of_blocks

theorem leaves_settleRead (s : State) (v : Tag) (e : Entry) (payload : List Byte) :
    Leaves l s (s.settleRead v e payload) := leaves_ite (leaves_retire s v _) .of_blocks

theorem leaves_settleNoCredit (s : State) (v : Tag) (e : Entry) : Leaves l s (s.settleNoCredit v e) :=
  leaves_ite .of_blocks .of_blocks

theorem leaves_takeReply (s : State) (r : ReplyHeard) : Leaves l s (s.takeReply r) := by
  unfold State.takeReply
  split
  · exact .refl s
  rename_i e _
  refine leaves_ite ?_ (.refl s)
  unfold State.settleReply
  refine (leaves_leaveForReply s r.tag e).trans ?_
  dsimp only
  split
  · exact leaves_ite (leaves_retire _ _ _) (leaves_settleRead _ _ _ _)
  · exact leaves_retire _ _ _
  · exact leaves_retire _ _ _
  · exact leaves_retire _ _ _
  · exact leaves_settleNoCredit _ _ _

theorem leaves_expireReply (s : State) (v : Tag) (e : Entry) : Leaves l s (s.expireReply v e) :=
  leaves_ite (leaves_retire s v _) (leaves_ite .of_blocks (leaves_retire s v _))

theorem leaves_endLoad (s : State) (v : Tag) (e : Entry) (o : AccessEnd) : Leaves l s (s.endLoad v e o) := by
  unfold State.endLoad
  split
  · exact leaves_retire s v _
  · exact leaves_retire s v _
  · exact leaves_ite (leaves_retire s v _) .of_blocks

theorem leaves_markAborting (s : State) (c : Chan) : Leaves l s (s.markAborting c) := by
  refine leaves_foldl (fun s v => ?_) allTags s
  split
  · exact .refl s
  · exact leaves_ite (leaves_ite .of_blocks .of_blocks) (.refl s)

theorem leaves_abortEntry (s : State) (c : Chan) (v : Tag) : Leaves l s (s.abortEntry c v) := by
  unfold State.abortEntry
  split
  · exact .refl s
  refine leaves_ite ?_ (.refl s)
  split
  · exact leaves_retire s v _
  · exact leaves_ite (.refl s) ((Leaves.of_blocks {}).trans (leaves_retire _ v _))
  all_goals exact .refl s

theorem leaves_abortRunning (s : State) (c : Chan) : Leaves l s (s.abortRunning c) := by
  have entries (u : State) : Leaves l u (u.abortEntries c) :=
    (leaves_markAborting u c).trans (leaves_foldl (fun s v => (leaves_abortEntry s c v).settle) allTags _)
  have stopped (f : Channel → Channel) : Leaves l s (s.modChan c f).retestReady := .of_blocks
  unfold State.abortRunning
  exact Leaves.settle ((stopped _).trans (entries _))

theorem leaves_abortChannel (s : State) (c : Chan) : Leaves l s (s.abortChannel c).1 := by
  have stopped (x : Channel) : Leaves l s ((s.setWait c none).setChan c x) := .of_blocks
  unfold State.abortChannel
  dsimp only
  split
  case h_6 | h_7 =>
    dsimp only
    exact leaves_abortRunning s c
  case h_12 => exact Leaves.settle ((stopped _).trans (leaves_complete _ c _))
  case h_13 =>
    unfold State.abortCompleting
    dsimp only
    split
    · exact .of_blocks
    · exact .refl s
  case h_3 => exact .of_blocks
  all_goals exact .refl s

/-! ## Peer cleanup and the updates by what is heard (R38 to R48) -/

theorem leaves_cleanupEntry (s : State) (why : FaultCode) (v : Tag) (e : Entry) : Leaves l s (s.cleanupEntry why v e) := by
  have sending : Quiet s.bus (s.withdrawSending v).bus := {
    item := by
      simp only [State.withdrawSending, Option.map_map]
      exact congrArg (Option.map · _) (funext fun x => by simp only [Function.comp]; split <;> rfl) }
  unfold State.cleanupEntry
  split
  · exact .of_blocks
  · refine Leaves.trans (leaves_ite ?_ ?_) (leaves_retire _ v _)
    · exact .of_blocks sending
    · exact .of_blocks {}
  · exact leaves_retire s v _
  · exact .of_blocks
  · exact .refl s

theorem leaves_cleanupEntries (p : Station) (why : FaultCode) (fuel : Nat) (s : State) :
    Leaves l s (State.cleanupEntries p why fuel s) :=
  PeerBus.cleanupEntries_keeps (P := fun t => Leaves l s t) (fun _ h => h.settle)
    (fun _ why v e _ h => h.trans (leaves_cleanupEntry _ why v e)) p why fuel (.refl s)

theorem quiet_withdrawControl (s : State) (f : Control → Bool) : Quiet s.bus (s.withdrawControl f).bus where
  item := by
    simp only [State.withdrawControl, Option.map_map]
    exact congrArg (Option.map · _) (funext fun x => PeerBus.withdrawIf_item f x)
  leave queued := List.mem_of_mem_filter queued

theorem leaves_cleanup (s : State) (p : Station) (why : FaultCode) : Leaves l s (s.cleanup p why) := by
  have credit (u : State) : Leaves l u (u.cleanupCredit p) :=
    .of_blocks (quiet_withdrawControl (u.modPeer p _) _) rfl rfl rfl rfl rfl rfl rfl rfl rfl rfl
  have stale (u : State) (i : SlotNo) (f : Slot → Slot) : Leaves l u (u.modSlot i f) := {
    slots := .inr fun j free => by
      rw [State.slot_modSlot]
      split
      · subst_vars; rw [free]; rfl
      · exact free }
  exact (((leaves_cleanupEntries p why 64 s).trans (credit _)).trans .of_blocks).trans
    (leaves_foldl (fun s i => stale s i _) allSlots _)

theorem leaves_failWaitsOn (s : State) (p : Station) : Leaves l s (s.failWaitsOn p) := by
  refine leaves_foldl (fun s c => ?_) allChans s
  split
  · exact leaves_ite (leaves_waitLost s c p) (.refl s)
  · exact .refl s

theorem leaves_hearPresent (s : State) (p : Station) (inc : Byte) (mark : Option Word) :
    Leaves l s ((s.hearPresent p inc mark).addChange p) := {}

theorem leaves_presenceUpdate (s : State) (p : Station) (inc : Byte) (mark : Option Word) (isJoin : Bool) :
    Leaves l s (s.presenceUpdate p inc mark isJoin) := by
  unfold State.presenceUpdate
  split
  · exact leaves_hearPresent s p inc mark
  · exact leaves_hearPresent s p inc mark
  · exact leaves_ite {} (((leaves_cleanup s p _).trans (leaves_hearPresent _ p inc mark)).trans (leaves_failWaitsOn _ p))

theorem leaves_leaveUpdate (s : State) (p : Station) (inc : Byte) (mark : Word) : Leaves l s (s.leaveUpdate p inc mark) := by
  have changed (u : State) (f : PeerEntry → PeerEntry) : Leaves l u ((u.modPeer p f).addChange p) := {}
  have left (f : PeerEntry → PeerEntry) : Leaves l s (((s.cleanup p .peerLeft).modPeer p f).addChange p) :=
    (leaves_cleanup s p _).trans (changed _ f)
  unfold State.leaveUpdate
  exact leaves_ite (left _) ((left _).trans (leaves_failWaitsOn _ p))

theorem leaves_silenceUpdate (s : State) (p : Station) : Leaves l s (s.silenceUpdate p) := by
  have silent (u : State) (f : PeerEntry → PeerEntry) : Leaves l u ((u.modPeer p f).addChange p) := {}
  exact ((leaves_cleanup s p _).trans (silent _ _)).trans (leaves_failWaitsOn _ p)

/-! ## What is delivered (R23) -/

theorem leaves_takeAsk (s : State) (p : Station) (n : Nat) : Leaves l s (s.takeAsk p n) :=
  leaves_ite {} (leaves_ite (leaves_ite (.refl s) {}) (.refl s))

theorem leaves_takeGrant (s : State) (p : Station) (n : Nat) (echo : Byte) : Leaves l s (s.takeGrant p n echo) :=
  leaves_ite (.of_blocks (quiet_withdrawControl (s.modPeer p _) _)) (.refl s)

theorem leaves_deliverReply (s : State) (p : Station) (inc : Byte) (kind : ReqKind) (tag seq echo status : Byte)
    (payload : List Byte) : Leaves l s (s.deliverReply p inc kind tag seq echo status payload) := by
  unfold State.deliverReply
  split
  · exact leaves_presenceUpdate s p inc none false
  · exact (leaves_presenceUpdate s p inc none false).trans (leaves_takeReply _ _)

/-! ## The inbound server (chapter 5) -/

/-- A slot that is occupied already may be written; a FREE one is filled by a request. -/
theorem leaves_setSlot {i : SlotNo} {x : Option Slot} (h : .slots ∈ l ∨ (s.slot i = none → x = none)) :
    Leaves l s (s.setSlot i x) where
  slots := h.imp_right fun filled j free => by
    rw [State.slot_setSlot]
    split
    · subst_vars; exact filled free
    · exact free

theorem leaves_replySlot (s : State) (i : SlotNo) (status : ReplyStatus) : Leaves l s (s.replySlot i status) := by
  unfold State.replySlot
  split
  · exact .refl s
  · rename_i x occupied
    have filled (y : Slot) : Leaves l s (s.setSlot i (some y)) :=
      leaves_setSlot (.inr fun free => by rw [occupied] at free; cases free)
    have queued (u : State) (r : QueuedReply) : Leaves l u (u.queueReply r) := .of_blocks {}
    exact (filled _).trans (queued _ _)

theorem leaves_recordServed (s : State) (x : Slot) (status : ReplyStatus) : Leaves l s (s.recordServed x status) :=
  leaves_ite {} (.refl s)

theorem leaves_checkWindow (fills : .slots ∈ l) (s : State) (i : SlotNo) (x : Slot) : Leaves l s (s.checkWindow i x) := by
  have refused (status : ReplyStatus) : Leaves l s (s.refuseSlot i x status) :=
    (leaves_recordServed s x status).trans (leaves_replySlot _ i status)
  have waits (u : State) (a : Access) : Leaves l u (u.queueInbound a) := {}
  exact leaves_ite (refused _) (leaves_ite (refused _) ((leaves_setSlot (.inl fills)).trans (waits _ _)))

theorem leaves_checkArrival (fills : .slots ∈ l) (s : State) (i : SlotNo) (x : Slot) : Leaves l s (s.checkArrival i x) := by
  unfold State.checkArrival
  split
  · exact leaves_checkWindow fills s i x
  split
  · exact leaves_replySlot s i _
  split
  · exact leaves_setSlot (.inl fills)
  · exact leaves_checkWindow fills s i x

/-- R65, R71: a request may fill a FREE slot. -/
theorem leaves_takeRequest (fills : .slots ∈ l) (s : State) (r : Request) : Leaves l s (s.takeRequest r) := by
  refine leaves_ite ?_ (leaves_ite (.of_blocks {}) (.refl s))
  split
  · have spent : Leaves l s (s.setGrant r.source (s.grantCount r.source - 1)) := {}
    have arrived (u : State) (i : SlotNo) :
        Leaves l u { u with inbound := { u.inbound with arrivals := u.inbound.arrivals ++ [i] } } := {}
    have pruned (u : State) : Leaves l u (u.prune r.source r.low) := {}
    exact (((spent.trans (leaves_setSlot (.inl fills))).trans (arrived _ _)).trans (pruned _)).trans
      (leaves_checkArrival fills _ _ _)
  · exact .refl s

/-- R86: the watch notice of a window; every other field of it stays. -/
theorem leaves_notice (notes : .notices ∈ l) (s : State) (x : Slot) (status : ReplyStatus) :
    Leaves l s (s.notice x status) := by
  refine leaves_ite ?_ (.refl s)
  exact {
    notices := .inl notes
    windows := .inr fun w => by
      rw [State.window_setWindowAt]
      split
      · subst_vars
        unfold Window.noticed
        split <;> rfl
      · rfl }

/-- R81: the end of an inbound access. -/
theorem leaves_endSlotAccess (notes : .notices ∈ l) (s : State) (i : SlotNo) (first : Nat) (e : AccessEnd) :
    Leaves l s (s.endSlotAccess i first e) := by
  unfold State.endSlotAccess
  split
  · exact .refl s
  · rename_i x occupied
    exact ((((leaves_setSlot (.inr fun free => by rw [occupied] at free; cases free)).trans
      (leaves_recordServed _ _ _)).trans (leaves_notice notes _ _ _)).trans (leaves_replySlot _ i _)).trans
      (leaves_foldl (fun s j => leaves_replySlot s j _) _ _)

/-! ## The ends of a channel's accesses (R109, R110, R167, R168) -/

theorem leaves_beginDescriptor (s : State) (c : Chan) (d : List Byte) : Leaves l s (s.beginDescriptor c d) :=
  leaves_ite .of_blocks .of_blocks

theorem leaves_endFetch (s : State) (c : Chan) (data : Option (List Byte)) : Leaves l s (s.endFetch c data) := by
  have copied (x : Channel) : Leaves l s (s.setChan c x) := .of_blocks
  refine leaves_ite (.refl s) ?_
  split
  · split
    · exact (copied _).trans (leaves_complete _ c _)
    · exact leaves_failChannel s c _ _
    · exact leaves_failChannel s c _ _
  · rename_i d
    refine (copied { s.chan c with copy := some d }).trans ?_
    dsimp only
    split
    · exact leaves_complete _ c _
    · exact leaves_complete _ c _
    · exact leaves_ite (leaves_beginDescriptor _ c _) (leaves_failChannel _ c _ _)

/-- R167: a record that has been written advances the producer. -/
theorem leaves_endRecord (writes : .producer ∈ l) (s : State) (c : Chan) (ok : Bool) : Leaves l s (s.endRecord c ok) := by
  have produced : Leaves l s { s with ring := { s.ring with inProgress := none, producer := s.ring.producer + 1#16 } } := {
    producer := .inl writes }
  have lost : Leaves l s (State.loseRecord { s with ring := { s.ring with inProgress := none } } c) := {}
  exact leaves_ite (leaves_ite ((produced.trans (leaves_leaveCompleting _ c)).trans (leaves_testRecordWrite _))
    (lost.trans (leaves_testRecordWrite _))) (.refl s)

end Sys2Proof.Scope
end

section
/-! SUPPORT. Resets, the configuration read and the station commands (sections 1.1 to 1.4): what each entry into a station
state makes of the whole state. -/
namespace Sys2Proof.StationStates

open Sys2Proof Sys2Proof.Machine Sys2Proof.Safety

-- Each thread of the elaborator reserves 1 GB under the memory limit of the check.
set_option Elab.async false

variable {s : State} {op : Byte}

/-! ## One change made at every place of a table -/

theorem peer_foldl_modPeer {f : PeerEntry → PeerEntry} (idem : ∀ q, f (f q) = f q) (l : List Station) (s : State)
    (p : Station) : (l.foldl (fun s p => s.modPeer p f) s).peer p = if p ∈ l then f (s.peer p) else s.peer p := by
  induction l generalizing s with
  | nil => simp
  | cons r l ih =>
    rw [List.foldl_cons, ih, State.peer_modPeer]
    by_cases same : r = p
    · subst same; simp [idem]
    · simp [same, Ne.symm same]

/-- A change made of every peer entry. -/
theorem foldl_modPeer_eq {f : PeerEntry → PeerEntry} (idem : ∀ q, f (f q) = f q) (s : State) :
    allStations.foldl (fun s p => s.modPeer p f) s = { s with peers := s.peers.map f } := by
  obtain ⟨x, frame⟩ := PeerBus.foldl_modPeer_frame f allStations s
  have each (p : Station) := peer_foldl_modPeer idem allStations s p
  simp only [Credits.mem_allStations, if_true, frame] at each
  rw [frame]
  congr 1
  ext i h : 1
  simpa [State.peer] using each ⟨i, h⟩

theorem window_foldl_clearNotice (l : List WindowNo) (s : State) (w : WindowNo) :
    (l.foldl (fun s w => s.setWindowAt w { s.window w with notice := none }) s).window w =
      if w ∈ l then { s.window w with notice := none } else s.window w := by
  induction l generalizing s with
  | nil => simp
  | cons v l ih =>
    rw [List.foldl_cons, ih, State.window_setWindowAt]
    by_cases same : v = w
    · subst same; simp
    · simp [same, Ne.symm same]

/-- R88: every notice becomes idle, and nothing else of a window changes. -/
theorem clearNotices_eq (s : State) :
    s.clearNotices = { s with windows := s.windows.map fun w => { w with notice := none } } := by
  obtain ⟨x, frame⟩ := PeerBus.clearNotices_frame s
  have each (w : WindowNo) := window_foldl_clearNotice allWindows s w
  change ∀ w, s.clearNotices.window w = _ at each
  simp only [HostRegisters.mem_allWindows, if_true, frame] at each
  rw [frame]
  congr 1
  ext i h : 1
  simpa [State.window] using each ⟨i, h⟩

/-! ## Entries into station states (R8, R11, R12) -/

theorem enterJoining_eq (s : State) (inc : Byte) : s.enterJoining inc = entered { s with
    station := { s.station with incarnation := some inc, joinListen := .running s.silenceTimeout }
    marks := { s.marks with own := 0#16 }
    peers := s.peers.map fun q => { q with nextSeq := 0#8 }
    bus := { s.bus with
      slotRef := .cold, clashCount := 0, line := .idle, slotClock := 0
      controlQueue := s.bus.controlQueue ++ [.join] } } .joining := by
  have sequences (u : State) : u.clearSequences = { u with peers := u.peers.map fun q => { q with nextSeq := 0#8 } } := by
    rw [State.clearSequences, foldl_modPeer_eq]
    exact fun _ => rfl
  simp only [State.enterJoining, sequences]
  rfl

theorem enterLeaving_eq (s : State) : s.enterLeaving = entered { s with
    credit := { s.credit with askList := [], grants := .replicate 16 0 }
    bus := { s.bus with
      controlQueue := s.bus.controlQueue.filter fun c => !c.isCredit
      transmit := s.bus.transmit.map (Transmission.withdrawIf Control.isCredit) }
    peers := s.peers.map fun q => { q with asked := false, askTimer := .stopped } } .leaving := by
  have asked (u : State) :
      u.clearAsked = { u with peers := u.peers.map fun q => { q with asked := false, askTimer := .stopped } } := by
    rw [State.clearAsked, foldl_modPeer_eq]
    exact fun _ => rfl
  simp only [State.enterLeaving, asked]
  rfl

theorem endSession_eq (s : State) : s.endSession = entered { s with
    peers := .replicate 16 .cleared, changes := 0#16, credit := .cleared, bus := .cleared
    windows := s.windows.map fun w => { w with notice := none }
    station := { s.station with joinListen := .stopped, presence := .stopped } } .offline := by
  simp only [State.endSession, clearNotices_eq]
  rfl

/-! ## The commands -/

theorem exec_join_wrongState (running : s.phase = .running) (h : s.station.state ≠ some .offline) :
    exec (.join op) s = .next (answeredOnly s 0x01 op wrongState) := by
  have u : (commanded s Config.codeJoin op).station.state ≠ some .offline := h
  simp only [exec, execJoin, State.takeCommand_running running, State.inStateOnly_of_ne u]
  rfl

theorem exec_leave_wrongState (running : s.phase = .running) (h : s.station.state ≠ some .online) :
    exec (.leave op) s = .next (answeredOnly s 0x02 op wrongState) := by
  have u : (commanded s Config.codeLeave op).station.state ≠ some .online := h
  simp only [exec, execLeave, State.takeCommand_running running, State.inStateOnly_of_ne u]
  rfl

theorem exec_clearIsolation_wrongState (running : s.phase = .running) (h : s.station.state ≠ some .isolated) :
    exec (.clearIsolation op) s = .next (answeredOnly s 0x03 op wrongState) := by
  have u : (commanded s Config.codeClearIsolation op).station.state ≠ some .isolated := h
  simp only [exec, execClearIsolation, State.takeCommand_running running, State.inStateOnly_of_ne u]
  rfl

/-- The codes that name a command are 0x01 to 0x0A and 0x10 to 0x14 (R174). -/
theorem not_named {code : Byte}
    (h : ¬ (1 ≤ code.toNat ∧ code.toNat ≤ 0x0A ∨ 0x10 ≤ code.toNat ∧ code.toNat ≤ 0x14)) :
    Config.commandCodes.contains code = false := by
  rw [List.contains_eq_mem, decide_eq_false_iff_not]
  intro named
  refine h ?_
  have inRange : ∀ c ∈ Config.commandCodes, 1 ≤ c.toNat ∧ c.toNat ≤ 0x0A ∨ 0x10 ≤ c.toNat ∧ c.toNat ≤ 0x14 := by decide
  exact inRange code named

theorem exec_unknownCommand (running : s.phase = .running) {code : Byte}
    (h : ¬ (1 ≤ code.toNat ∧ code.toNat ≤ 0x0A ∨ 0x10 ≤ code.toNat ∧ code.toNat ≤ 0x14)) :
    exec (.unknownCommand code op) s = .next (answeredOnly s code op badParameter) := by
  simp only [exec, execUnknownCommand, not_named h, State.takeCommand_running running]
  rfl

/-- Settles O8: each command asks for its station state, and a code outside the table for nothing. -/
theorem refusedCommandsOnlyAnswer : Obligations.RefusedCommandsOnlyAnswer := by
  refine ⟨fun op s running => ⟨fun h => ⟨exec_join_wrongState running h, ?_, ?_⟩,
    fun h => ⟨exec_leave_wrongState running h, ?_⟩, exec_clearIsolation_wrongState running,
    Channels.exec_start_configFault running⟩, fun code op s running => exec_unknownCommand running⟩
  · exact Inbound.exec_setWindow_wrongState running h
  · exact Inbound.exec_setRing_wrongState running h
  · exact Marks.exec_advanceMark_wrongState running h

/-- Settles O9: the two checks decide between the six effects and BAD-PARAMETER. -/
theorem joinEntersJoining : Obligations.JoinEntersJoining := by
  intro op s running u good
  have decided (offline : s.station.state = some .offline) : exec (.join op) s = .next
      ((if u.ring.config.isSome && (u.param 0).toNat ≤ 255 then (u.enterJoining (lowByte (u.param 0)), ResultCode.accepted)
        else (u, .badParameter)).1.answer Config.codeJoin
      (if u.ring.config.isSome && (u.param 0).toNat ≤ 255 then (u.enterJoining (lowByte (u.param 0)), ResultCode.accepted)
        else (u, .badParameter)).2) := by
    have v : (commanded s Config.codeJoin op).station.state = some .offline := offline
    simp only [exec, execJoin, State.takeCommand_running running, State.inStateOnly_of_eq v]
    rfl
  have checks : (u.ring.config.isSome && (u.param 0).toNat ≤ 255) = true ↔ good := by
    rw [Bool.and_eq_true, decide_eq_true_iff]
    rfl
  refine ⟨exec_join_wrongState running, fun offline isGood => ?_, fun offline notGood => ?_⟩
  · rw [decided offline, if_pos (checks.2 isGood), enterJoining_eq]
    rfl
  · rw [decided offline, if_neg (mt checks.1 notGood)]
    rfl

theorem channelsAtRest_iff (s : State) :
    s.channelsAtRest = true ↔ ∀ c, (s.chan c).state = .idle ∨ (s.chan c).state = .faulted := by
  simp [State.channelsAtRest, Descriptors.mem_allChans]

/-- R33: an ASK or GRANT in transmission is recorded as withdrawn. -/
theorem withdrawIf_isCredit (x : Transmission) : Transmission.withdrawIf Control.isCredit x = (match x.item with
    | .control (.ask _ _) | .control (.grant _ _ _) => { x with withdrawn := true }
    | _ => x) := by
  obtain ⟨item, message, withdrawn⟩ := x
  cases item with
  | reply r => rfl
  | control c => cases c <;> rfl
  | request v => rfl

/-- Settles O10: the entry into LEAVING and the return to OFFLINE, where the channels are at rest. -/
theorem leaveAndClearIsolation : Obligations.LeaveAndClearIsolation := by
  constructor
  · intro op s running online u atRest
    have v : (commanded s Config.codeLeave op).station.state = some .online := online
    have rest : (commanded s Config.codeLeave op).channelsAtRest = true ↔ atRest := channelsAtRest_iff _
    simp only [exec, execLeave, State.takeCommand_running running, State.inStateOnly_of_eq v]
    refine ⟨fun h => ?_, fun h => ?_⟩
    · rw [if_pos (rest.2 h), enterLeaving_eq, funext withdrawIf_isCredit]
      rfl
    · rw [if_neg (mt rest.1 h)]
      rfl
  · intro op s running isolated free
    have v : (commanded s Config.codeClearIsolation op).station.state = some .isolated := isolated
    have isFree : ((commanded s Config.codeClearIsolation op).channelsAtRest &&
        (commanded s Config.codeClearIsolation op).ring.waitList.isEmpty &&
        (commanded s Config.codeClearIsolation op).ring.inProgress.isNone) = true ↔ free := by
      rw [Bool.and_eq_true, Bool.and_eq_true, channelsAtRest_iff, List.isEmpty_iff, Option.isNone_iff_eq_none, and_assoc]
      rfl
    simp only [exec, execClearIsolation, State.takeCommand_running running, State.inStateOnly_of_eq v]
    refine ⟨fun h => ?_, fun h => ?_⟩
    · rw [if_pos (isFree.2 h)]
      rfl
    · rw [if_neg (mt isFree.1 h)]
      rfl

/-! ## Timers of the station (R9, R43) -/

theorem exec_joinListenTimerExpiry {ms : Nat} (joining : s.station.state = some .joining)
    (timer : s.station.joinListen = .running ms) : exec .joinListenTimerExpiry s = .next (State.settle { s with
      station := { s.station with
        state := some .online, joinListen := .stopped, presence := .running s.latch.bytes.presenceInterval.toNat }
      host := { s.host with stationCause := true } }) := by
  have due : (s.inState .joining && s.station.joinListen.isRunning) = true := by
    simp [State.inState, joining, timer, Timer.isRunning]
  simp only [exec, execJoinListenTimerExpiry, if_pos due]
  rfl

/-- R31, R43: a PRESENCE is dropped while an announcement waits and once the LEAVE is pending. -/
theorem queuePresence_eq (s : State) : s.queuePresence = { s with
    bus := { s.bus with
      controlQueue :=
        if (∃ c ∈ s.bus.controlQueue, c = .join ∨ c = .presence ∨ c = .leave) ∨
          s.bus.transmit.map (·.item) = some (.control .leave) then s.bus.controlQueue
        else s.bus.controlQueue ++ [.presence] } } := by
  have waits : (∃ c ∈ s.bus.controlQueue, c = .join ∨ c = .presence ∨ c = .leave) ↔
      s.bus.controlQueue.any Control.isAnnouncement = true := by
    rw [List.any_eq_true]
    refine exists_congr fun c => and_congr_right fun _ => ?_
    cases c <;> simp [Control.isAnnouncement]
  by_cases sending : s.bus.transmit.map (·.item) = some (.control .leave)
  · rw [if_pos (.inr sending)]
    exact if_pos (Scope.leavePending_iff.2 (.inr sending))
  by_cases queued : s.bus.controlQueue.any Control.isAnnouncement = true
  · rw [if_pos (.inl (waits.2 queued))]
    unfold State.queuePresence State.queueControl coalesce
    rw [if_pos queued, ite_self]
  · rw [if_neg fun h => h.elim (queued ∘ waits.1) sending]
    have notPending : ¬ s.leavePending = true := fun pending => (Scope.leavePending_iff.1 pending).elim
      (fun leave => queued (List.any_eq_true.2 ⟨.leave, leave, rfl⟩)) sending
    unfold State.queuePresence State.queueControl coalesce
    rw [if_neg notPending, if_neg queued]

theorem exec_presenceTimerExpiry {ms : Nat} (timer : s.station.presence = .running ms) :
    exec .presenceTimerExpiry s = .next { s.queuePresence with
      station := { s.station with presence := .running s.latch.bytes.presenceInterval.toNat } } := by
  have due : s.station.presence.isRunning = true := by rw [timer]; rfl
  simp only [exec, execPresenceTimerExpiry, if_pos due]
  rfl

/-- Settles O11: each expiry finds its timer running. -/
theorem stationTimersExpire : Obligations.StationTimersExpire := by
  refine ⟨fun s ms joining timer => exec_joinListenTimerExpiry joining timer, fun s ms timer => ?_⟩
  rw [exec_presenceTimerExpiry timer, queuePresence_eq]

/-! ## Resets and the configuration (R1, R2, R4 to R6) -/

/-- The bytes of a write cut short, or of an ended one, as the statements have them. -/
theorem writtenBy_of_writeWhere {took : Access → Nat → Bool} {x : Access} (h : writeInProgress s = some x) :
    WrittenBy s took (Memory.writeWhere (took x) x.bytes x.addr 0 s.written) := by
  intro a
  rw [Memory.read_writeWhere, h]
  rfl

theorem writtenBy_of_none {took : Access → Nat → Bool} (h : writeInProgress s = none) : WrittenBy s took s.written := by
  intro a
  rw [h]

/-- R5: a start reset cuts the write in progress short, and changes nothing else of local memory. -/
theorem applyCut_eq (s : State) (cut : List Bool) :
    s.applyCut cut = { s with written := (s.applyCut cut).written } ∧
      WrittenBy s (fun _ j => cut.getD j false) (s.applyCut cut).written := by
  unfold State.applyCut
  split
  case h_1 none =>
    exact ⟨rfl, writtenBy_of_none (by rw [writeInProgress, none])⟩
  case h_2 cur current =>
    split
    case isTrue write =>
      have writes : writeInProgress s = some cur.access := by rw [writeInProgress, current]; exact if_pos write
      exact ⟨rfl, writtenBy_of_writeWhere (took := fun _ j => cut.getD j false) writes⟩
    case isFalse read =>
      exact ⟨rfl, writtenBy_of_none (by rw [writeInProgress, current]; exact if_neg read)⟩

/-- Settles O3: the reset clears each block, and only the cut reaches local memory. -/
theorem startResetClearsEveryBlock : Obligations.StartResetClearsEveryBlock := by
  intro cut s
  obtain ⟨frame, wrote⟩ := applyCut_eq s cut
  refine ⟨⟨(s.applyCut cut).written, ?_, wrote⟩, (s.applyCut cut).written, ?_, wrote⟩
  · simp only [exec, execPowerOn, State.beginStartReset, State.clearBlocks]
    rw [frame]
    rfl
  · simp only [exec, execResetPinAssert, State.beginStartReset, State.clearBlocks]
    rw [frame]
    rfl

/-- Settles O4: each end is one of what is in progress, or no event. -/
theorem startReadsTheConfiguration : Obligations.StartReadsTheConfiguration := by
  constructor
  · refine fun s => ⟨fun kind reset => ?_, fun noReset => ?_⟩
    · simp only [exec, execResetEnd, reset]
      cases kind <;> rfl
    · simp only [exec, execResetEnd]
      split
      case h_1 kind reset => exact absurd reset (noReset kind)
      all_goals rfl
  · intro answers s byteAt b
    exact ⟨fun reading => congrArg _ (if_pos reading), fun notReading => congrArg _ (if_neg notReading)⟩

/-- Settles O7: the soft reset's blocks, in CONFIG-FAULT and elsewhere. -/
theorem softResetReturnsToResetContents : Obligations.SoftResetReturnsToResetContents := by
  intro op s running after
  simp only [exec, execSoftReset, State.takeCommand_running running, State.softResetBlocks]
  by_cases fault : s.station.state = some .configFault
  · have u : (commanded s Config.codeSoftReset op).inState .configFault = true := by
      simp [State.inState, commanded, fault]
    rw [if_pos u, if_pos fault]
    rfl
  · have u : ¬ (commanded s Config.codeSoftReset op).inState .configFault = true := by
      simp [State.inState, commanded, fault]
    rw [if_neg u, if_neg fault]
    change _ = Host.Outcome.next (entered { after with phase := .running } .offline)
    rw [← running]
    rfl

/-- Settles O6: outside the running phase each write of the host port tests the phase and does nothing. -/
theorem hostPortIsSilentOutsideRunning : Obligations.HostPortIsSilentOutsideRunning := by
  intro s silent
  refine ⟨fun a => if_neg silent, ?_, fun c write => ?_⟩
  · simp [State.attnLine, silent]
  · have taken (code operand : Byte) (decision : State → State × ResultCode) :
        Host.Outcome.next (s.takeCommand code operand decision) = (.next s : Result) :=
      congrArg _ (State.takeCommand_silent silent code operand decision)
    cases c
    case consumerWrite | attnWrite | attnenWrite | registerWrite => exact congrArg _ (if_neg silent)
    case unknownCommand code operand =>
      simp only [exec, execUnknownCommand, State.takeCommand_silent silent, ite_self]
    case join | leave | clearIsolation | softReset | setWindow | setRing | start | abort | clear | advanceMark | readChannel
        | readPeer | readWindow | readWatch | readPeerChanges => exact taken _ _ _
    all_goals cases write

/-! ## The configuration check (R2, section 1.1) -/

theorem sumGood_iff (b : ConfigBytes) : b.sumGood = true ↔
    (b.stationNumber.toNat + b.stationCount.toNat + b.rateAndCap.toNat + b.presenceInterval.toNat
      + b.silenceMultiplier.toNat + b.replyTimeout.toNat + b.attemptLimit.toNat + b.checkByte.toNat) % 256 = 0x5A := by
  rw [ConfigBytes.sumGood, decide_eq_true_iff, ← BitVec.toNat_inj]
  simp only [BitVec.toNat_add, BitVec.toNat_ofNat, Nat.add_mod, Nat.mod_mod]

theorem check_badSum_iff (b : ConfigBytes) : b.check = .badSum ↔ ¬ b.sumGood = true := by
  unfold ConfigBytes.check
  cases b.sumGood
  · simp
  · cases b.fieldsGood.findIdx? (fun ok => !ok) <;> simp

theorem check_good_iff (b : ConfigBytes) :
    b.check = .good ↔ b.sumGood = true ∧ b.fieldsGood.findIdx? (fun ok => !ok) = none := by
  unfold ConfigBytes.check
  cases b.sumGood
  · simp
  · cases b.fieldsGood.findIdx? (fun ok => !ok) <;> simp

theorem check_badField_iff (b : ConfigBytes) (i : Nat) :
    b.check = .badField i ↔ b.sumGood = true ∧ b.fieldsGood.findIdx? (fun ok => !ok) = some i := by
  unfold ConfigBytes.check
  cases b.sumGood
  · simp
  · cases b.fieldsGood.findIdx? (fun ok => !ok) <;> simp

/-- Settles O5: the check searches bytes 0 to 6, in this order, once the sum is good. -/
theorem configurationCheckFollowsItsOrder : Obligations.ConfigurationCheckFollowsItsOrder := by
  intro b sum good
  have length : b.fieldsGood.length = 7 := rfl
  have field (i : Nat) (h : i < b.fieldsGood.length) : b.fieldsGood[i] = true ↔ good i := by
    rw [length] at h
    interval_cases i <;> simp [ConfigBytes.fieldsGood, good, and_assoc]
  rw [check_badSum_iff, check_good_iff, sumGood_iff]
  refine ⟨Iff.rfl, and_congr_right fun _ => ?_, fun i => ?_⟩
  · rw [List.findIdx?_eq_none_iff]
    refine ⟨fun all j h => ?_, fun all x mem => ?_⟩
    · have := all _ (List.getElem_mem (length ▸ h : j < b.fieldsGood.length))
      exact (field j _).1 (by simpa using this)
    · obtain ⟨j, h, rfl⟩ := List.mem_iff_getElem.1 mem
      simpa using (field j h).2 (all j (length ▸ h))
  · rw [check_badField_iff, sumGood_iff, List.findIdx?_eq_some_iff_getElem]
    refine and_congr_right fun _ => ⟨fun ⟨h, bad, before⟩ => ⟨length ▸ h, ?_, fun j lt => ?_⟩,
      fun ⟨h, bad, before⟩ => ⟨length ▸ h, ?_, fun j lt => ?_⟩⟩
    · rw [← field i h]
      simpa using bad
    · rw [← field j (by omega)]
      simpa using before j lt
    · have := mt (field i (length ▸ h)).1 bad
      simpa using this
    · have := (field j (by omega)).2 (before j lt)
      simpa using this

end Sys2Proof.StationStates
end

section
/-! SUPPORT. Isolation takes the station off the bus (R14): the blocks it clears, and that neither the end of the channels
and entries nor the part's own steps that follow put anything back. -/
namespace Sys2Proof.Isolation

open Sys2Proof Sys2Proof.Machine Sys2Proof.Safety OwnSteps StationStates

-- Each thread of the elaborator reserves 1 GB under the memory limit of the check.
set_option Elab.async false

variable {s t u : State}

/-! ## The blocks that isolation clears (R14) -/

/-- The port at the entry into ISOLATED: no inbound access waits, and the result of a running one is dropped (R163). -/
def cutPort (p : LocalPort) : LocalPort :=
  { p with
    inQueue := []
    current := p.current.map fun c => match c.access.requester with
      | .inboundWrite _ | .inboundRead _ => c.drop
      | .fetch _ | .load _ | .store _ | .record _ => c }

/-- The state in which isolation comes to the channels. -/
def cutOff (s : State) : State :=
  { s with
    bus := .cleared, inbound := .cleared, port := cutPort s.port, peers := .replicate 16 .cleared, changes := 0#16
    credit := .cleared, windows := s.windows.map fun w => { w with notice := none }
    station := { s.station with state := some .isolated, joinListen := .stopped, presence := .stopped }
    host := { s.host with stationCause := true }, readyList := [] }

/-- The channels have taken their faults and flags (R126). -/
def halted (s : State) : State := allChans.foldl State.isolateChannel (cutOff s)

/-- The entries are settled, and the channels that a retirement ends are ended (R146, R147). -/
def entriesEnded (s : State) : State := allTags.foldl State.isolateEntry (halted s)

/-- Every channel that isolation ends at once is ended (R126, R166). -/
def channelsEnded (s : State) : State := allChans.foldl State.endIsolated (entriesEnded s)

theorem isolate_eq (s : State) : s.isolate = (channelsEnded s).settle := by
  unfold State.isolate
  rw [clearNotices_eq]
  rfl

/-! ## What stays once the station is off the bus -/

/-- The station is off the bus, and no channel has come to run. -/
structure Off (s : State) : Prop where
  state : s.station.state = some .isolated
  bus : s.bus = .cleared
  peers : s.peers = .replicate 16 .cleared
  credit : s.credit = .cleared
  inbound : s.inbound = .cleared
  inQueue : s.port.inQueue = []
  readyList : s.readyList = []

/-- A step after which the station is still off the bus if it was; an access in progress runs on, and no channel begins to
run. -/
structure StaysOff (s t : State) : Prop where
  own : OwnLeaves s t
  off : Off s → Off t
  current : ∀ cur, s.port.current = some cur → t.port.current = some cur
  running : ∀ c, (s.chan c).state ≠ .running → (t.chan c).state ≠ .running

theorem StaysOff.refl (s : State) : StaysOff s s := ⟨.refl s, id, fun _ => id, fun _ => id⟩

theorem StaysOff.trans (h : StaysOff s t) (h' : StaysOff t u) : StaysOff s u :=
  ⟨h.own.trans h'.own, h'.off ∘ h.off, fun cur => h'.current cur ∘ h.current cur, fun c => h'.running c ∘ h.running c⟩

theorem transmitterOff (h : Off s) : s.transmitterOn = false := by
  simp [State.transmitterOn, State.receiverOn, State.inState, h.state]

/-- A change of the channels, the mark unit, the ring or the outbound queue. -/
theorem Off.of_blocks (h : Off s) (bus : t.bus = s.bus := by rfl) (station : t.station = s.station := by rfl)
    (peers : t.peers = s.peers := by rfl) (credit : t.credit = s.credit := by rfl)
    (inbound : t.inbound = s.inbound := by rfl) (inQueue : t.port.inQueue = s.port.inQueue := by rfl)
    (readyList : t.readyList = s.readyList := by rfl) : Off t where
  state := by rw [station]; exact h.state
  bus := bus.trans h.bus
  peers := peers.trans h.peers
  credit := credit.trans h.credit
  inbound := inbound.trans h.inbound
  inQueue := inQueue.trans h.inQueue
  readyList := readyList.trans h.readyList

/-! ## The channel engine -/

theorem running_setChan {c : Chan} {x : Channel} (h : (s.chan c).state ≠ .running → x.state ≠ .running) (d : Chan)
    (before : (s.chan d).state ≠ .running) : ((s.setChan c x).chan d).state ≠ .running := by
  rw [State.chan_setChan]
  split
  · subst_vars; exact h before
  · exact before

theorem staysOff_setChan (s : State) (c : Chan) (x : Channel)
    (faults : FaultCounts (s.chan c) → FaultCounts x := by exact id)
    (running : (s.chan c).state ≠ .running → x.state ≠ .running := by exact id) : StaysOff s (s.setChan c x) where
  own := ownLeaves_setChan s c x faults
  off h := h.of_blocks
  current _ := id
  running := running_setChan running

theorem staysOff_setWait (s : State) (c : Chan) (m : Option WaitMember) : StaysOff s (s.setWait c m) where
  own := ownLeaves_setWait s c m
  off h := h.of_blocks
  current _ := id
  running _ := id

theorem staysOff_setEntry (s : State) (v : Tag) (x : Option Entry) : StaysOff s (s.setEntry v x) where
  own := ownLeaves_setEntry s v x
  off h := h.of_blocks
  current _ := id
  running _ := id

theorem staysOff_queueOutbound (s : State) (a : Access) : StaysOff s (s.queueOutbound a) where
  own := ownLeaves_queueOutbound s a
  off h := h.of_blocks
  current _ := id
  running _ := id

/-- R152: with the transmitter off an advance of the own mark queues nothing. -/
theorem staysOff_advanceMark (s : State) : StaysOff s s.advanceMark where
  own := ownLeaves_advanceMark s
  off h := by
    have off := transmitterOff h
    have advanced : s.advanceMark = { s with marks := { s.marks with own := s.marks.own + 1#16 } } :=
      if_neg (by rw [Bool.not_eq_true]; exact off)
    exact advanced ▸ h.of_blocks
  current _ h := by rwa [State.advanceMark_port]
  running c h := by rwa [State.advanceMark_chan]

theorem staysOff_chainOrIdle (s : State) (c : Chan) (chains : Bool) (a : Nat) :
    StaysOff s (s.chainOrIdle c chains a) := by
  have apart {st : ChanState} (h : (st == .running) = false) : st ≠ .running := by simpa using h
  unfold State.chainOrIdle
  split
  · exact (staysOff_setChan s c _ (fun _ => faultCounts_of_none rfl) fun _ => apart rfl).trans (staysOff_queueOutbound _ _)
  · exact staysOff_setChan s c _ (running := fun _ => apart rfl)

theorem staysOff_leaveCompleting (s : State) (c : Chan) : StaysOff s (s.leaveCompleting c) := by
  have out : StaysOff s (s.modChan c Channel.outOfCompleting) := staysOff_setChan s c _
  have ended (st : ChanState) (h : st ≠ .running) : StaysOff s
      ((s.modChan c Channel.outOfCompleting).modChan c fun ch => { ch with state := st }) :=
    out.trans (staysOff_setChan _ c _ (running := fun _ => h))
  simp only [State.leaveCompleting]
  split
  · split
    · exact (out.trans (staysOff_advanceMark _)).trans (staysOff_chainOrIdle _ c _ _)
    · exact out.trans (staysOff_chainOrIdle _ c _ _)
  · exact out.trans (staysOff_chainOrIdle _ c _ _)
  all_goals exact ended _ (by decide)

theorem staysOff_recordWriteIssue (h : s.recordWriteIssue = some t) : StaysOff s t := by
  have own := ownLeaves_recordWriteIssue h
  obtain ⟨c, rest, r, -, -, -, -, rfl⟩ := State.recordWriteIssue_spec h
  exact ⟨own, fun h => h.of_blocks, fun _ => id, fun _ => id⟩

theorem staysOff_testRecordWrite (s : State) : StaysOff s s.testRecordWrite := by
  unfold State.testRecordWrite
  cases h : s.recordWriteIssue with
  | none => exact .refl s
  | some t => exact staysOff_recordWriteIssue h

theorem staysOff_complete (s : State) (c : Chan) (status : PendingStatus) : StaysOff s (s.complete c status) := by
  have waits (v : State) : StaysOff v { v with ring := { v.ring with waitList := v.ring.waitList ++ [c] } } :=
    ⟨.of_line {} {}, fun h => h.of_blocks, fun _ => id, fun _ => id⟩
  have entered (x : Channel) (h : x.fault = (s.chan c).fault) (st : x.state = .completing) :
      StaysOff s (s.setChan c x) :=
    staysOff_setChan s c x (fun counts f hf => counts f (h ▸ hf)) fun _ => by rw [st]; decide
  simp only [State.complete]
  split
  · refine StaysOff.trans ?_ (staysOff_testRecordWrite _)
    exact StaysOff.trans (entered _ (by rfl) (by rfl)) (waits _)
  · exact (entered _ (by rfl) (by rfl)).trans (staysOff_leaveCompleting _ c)

theorem staysOff_takeReport (s : State) (c : Chan) (r : WaitReport) : StaysOff s (s.takeReport c r) := by
  have left := staysOff_setWait s c none
  cases r with
  | satisfied => exact (left.trans (staysOff_setChan _ c _)).trans (staysOff_complete _ c .done)
  | lost p =>
    have faulted := staysOff_setChan (s.setWait c none) c
      { Channel.channelFault (s.chan c) .peerLost (some p) with waitTimer := .stopped }
      (fun _ => faultCounts_channelFault (s.chan c) .peerLost (some p)) (by
        obtain ⟨f, fault⟩ := Channels.channelFault_frame (s.chan c) .peerLost (some p)
        rw [fault]
        exact id)
    exact (left.trans faulted).trans (staysOff_complete _ c .faulted)
  | still => exact .refl s

theorem staysOff_foldl {α : Type} {f : State → α → State} (h : ∀ s a, StaysOff s (f s a)) (l : List α) (s : State) :
    StaysOff s (l.foldl f s) := by
  induction l generalizing s with
  | nil => exact .refl s
  | cons a l ih => exact (h s a).trans (ih (f s a))

theorem staysOff_leaveWaitSet (s : State) (l : List (Chan × WaitReport)) : StaysOff s (s.leaveWaitSet l) :=
  staysOff_foldl (fun s (r : Chan × WaitReport) => staysOff_setWait s r.1 none) l s

theorem staysOff_deliverReports (fuel : Nat) (l : List (Chan × WaitReport)) (s : State) :
    StaysOff s (State.deliverReports fuel l s) := by
  induction fuel generalizing l s with
  | zero => exact .refl s
  | succ n ih =>
    cases l with
    | nil => exact .refl s
    | cons r rest => exact ((staysOff_takeReport s r.1 r.2).trans (staysOff_leaveWaitSet _ _)).trans (ih _ _)

theorem staysOff_isolateChannel (s : State) (c : Chan) : StaysOff s (s.isolateChannel c) := by
  obtain ⟨f, fault⟩ := Channels.channelFault_frame (s.chan c) .isolated none
  have counts := faultCounts_channelFault (s.chan c) .isolated none
  unfold State.isolateChannel
  dsimp only
  split
  case h_1 | h_2 => exact .refl s
  case h_6 =>
    refine (staysOff_setWait s c none).trans (staysOff_setChan _ c _ (fun _ => counts) ?_)
    rw [fault]
    exact id
  case h_7 => exact staysOff_setChan s c _
  all_goals
    exact staysOff_setChan s c _ (fun _ => counts) fun _ => Channels.isolateBusy_state (s.chan c)

theorem staysOff_endIsolated (s : State) (c : Chan) : StaysOff s (s.endIsolated c) :=
  iteInduction (fun _ => staysOff_complete s c .faulted) fun _ => .refl s

/-! ## The own steps -/

theorem peer_cleared (h : Off s) (p : Station) : s.peer p = .cleared := by simp [State.peer, h.peers]

/-- Off the bus nobody waits at a peer, asks or is asked, and no piece is issued: what is left is WAITs, the end of
descriptors, record writes and the port. -/
theorem ownStep_cases_off (off : Off s) (h : s.ownStep = some t) : s.judgeWaits = some t ∨
    (∃ c, s.descriptorEnd c = some t) ∨ s.recordWriteIssue = some t ∨ s.accessGrant = some t := by
  have waitList (p : Station) : (s.peer p).waitList = [] := by rw [peer_cleared off]; rfl
  rcases State.ownStep_cases h with ⟨v, h⟩ | h | h | h | ⟨p, h⟩ | ⟨p, h⟩ | h | h | h | h
  · obtain ⟨e, reason, -, -, absent, -⟩ := State.absentRetire_spec h
    rw [peer_cleared off] at absent
    cases absent
  · exact .inl h
  · exact .inr (.inl h)
  · exact .inr (.inr (.inl h))
  · obtain ⟨v, rest, e, seq, next, waits, -⟩ := State.creditHanding_spec h
    rw [waitList] at waits
    cases waits
  · exact absurd (waitList p) (State.asking_spec h).1
  · obtain ⟨c, rest, v, ready, -⟩ := State.entryAllocation_spec h
    rw [off.readyList] at ready
    cases ready
  · obtain ⟨a, rest, asks, -⟩ := State.granting_spec h
    rw [off.credit] at asks
    cases asks
  · obtain ⟨leaving, -⟩ := State.leaveQueued_spec h
    simp [State.inState, off.state] at leaving
  · exact .inr (.inr (.inr h))

theorem staysOff_accessGrant (off : Off s) (h : s.accessGrant = some t) : StaysOff s t := by
  have own := ownLeaves_accessGrant h
  obtain ⟨idle, ⟨a, rest, -, -, rfl⟩ | ⟨b, rest, queued, -⟩⟩ := State.accessGrant_spec h
  · exact ⟨own, fun h => h.of_blocks, fun cur busy => (nomatch (idle.symm.trans busy)), fun _ => id⟩
  · rw [off.inQueue] at queued
    cases queued

/-- What the own steps leave of a station off the bus, its entries included. -/
theorem ownStep_off (off : Off s) (h : s.ownStep = some t) : StaysOff s t ∧ t.entries = s.entries := by
  rcases ownStep_cases_off off h with h | ⟨c, h⟩ | h | h
  · obtain ⟨-, rfl⟩ := State.judgeWaits_spec h
    exact ⟨(staysOff_leaveWaitSet s _).trans (staysOff_deliverReports 8 _ _), by simp⟩
  · obtain ⟨-, rfl⟩ := State.descriptorEnd_spec h
    exact ⟨staysOff_complete s c _, by simp⟩
  · refine ⟨staysOff_recordWriteIssue h, ?_⟩
    obtain ⟨c, rest, r, -, -, -, -, rfl⟩ := State.recordWriteIssue_spec h
    rfl
  · refine ⟨staysOff_accessGrant off h, ?_⟩
    obtain ⟨-, ⟨a, rest, -, -, rfl⟩ | ⟨b, rest, -, -, rfl⟩⟩ := State.accessGrant_spec h
    · rfl
    · simp

theorem settle_off (off : Off s) : StaysOff s s.settle ∧ s.settle.entries = s.entries := by
  refine State.settle_induction (P := fun t => StaysOff s t ∧ t.entries = s.entries) (fun t u kept h => ?_) ⟨.refl s, rfl⟩
  obtain ⟨stays, entries⟩ := ownStep_off (kept.1.off off) h
  exact ⟨kept.1.trans stays, entries.trans kept.2⟩

/-! ## The entries (R146) -/

/-- The station is off the bus and no channel runs, since `r`. -/
structure Still (r s : State) : Prop where
  stays : StaysOff r s
  off : Off s
  running : ∀ c, (s.chan c).state ≠ .running

variable {r : State}

theorem Still.step (h : Still r s) (h' : StaysOff s t) : Still r t :=
  ⟨h.stays.trans h', h'.off h.off, fun c => h'.running c (h.running c)⟩

theorem still_foldl {α : Type} {f : State → α → State} (step : ∀ s a, Still r s → Still r (f s a)) (l : List α)
    (h : Still r s) : Still r (l.foldl f s) := by
  induction l generalizing s with
  | nil => exact h
  | cons a l ih => exact ih (step s a h)

/-- A channel that does not run is not brought to run by a piece that ends. -/
theorem applyOutcome_not_running {ch : Channel} (h : ch.state ≠ .running) (o : PieceOutcome) (piece : Nat) (p : Station) :
    (ch.applyOutcome o piece p).state ≠ .running := by
  rcases (Channels.oneLess_applyOutcome ch o piece p).state with same | draining
  · exact same ▸ h
  · rw [draining]; decide

/-- R147: no channel runs, so a retirement makes none ready. -/
theorem Still.retire (h : Still r s) (v : Tag) (o : PieceOutcome) : Still r (s.retire v o) := by
  cases entry : s.entry v with
  | none => rw [Channels.retire_free entry]; exact h
  | some e =>
    rw [Channels.retire_eq entry]
    have told := h.step ((staysOff_setEntry s v none).trans (staysOff_setChan _ e.chan
      ((s.chan e.chan).applyOutcome o e.piece e.peer) (faultCounts_applyOutcome o e.piece e.peer)
      fun before => applyOutcome_not_running before o e.piece e.peer))
    generalize (s.setEntry v none).setChan e.chan _ = w at told
    have noneReady : w.retestReady = w := by
      have none (c : Chan) : w.qualifies c = false := Channels.not_qualifies_of_state (told.running c)
      have ready := told.off.readyList
      have empty : w.readyList.filter w.qualifies ++ allChans.filter (fun c => w.qualifies c && !w.readyList.contains c)
          = w.readyList := by simp [ready, none]
      unfold State.retestReady
      rw [empty]
    rwa [noneReady]

theorem Still.endIsolated (h : Still r s) (c : Chan) : Still r (s.endIsolated c) := h.step (staysOff_endIsolated s c)

theorem Still.endIsolatedBelow (h : Still r s) (c : Chan) : Still r (s.endIsolatedBelow c) :=
  iteInduction (fun _ => still_foldl (fun _ _ h => h.endIsolated _) _ h) fun _ => h

theorem Still.isolateEntry (h : Still r s) (v : Tag) : Still r (s.isolateEntry v) := by
  unfold State.isolateEntry
  split
  · exact h
  split
  case h_4 => exact h.step (staysOff_setEntry s v _)
  case h_5 => exact h
  all_goals exact ((h.endIsolatedBelow _).retire v _).endIsolated _

/-- An entry that isolation leaves in use: its local access runs on (R146). -/
def RunsOut (e : Entry) : Prop := e.state = .storing ∨ e.state = .loading ∧ e.retireReason = some .isolated

@[simp] theorem endIsolated_entry (s : State) (c : Chan) (v : Tag) : (s.endIsolated c).entry v = s.entry v := by
  unfold State.endIsolated
  split
  · exact State.complete_entry s c _ v
  · rfl

@[simp] theorem endIsolatedBelow_entry (s : State) (c : Chan) (v : Tag) : (s.endIsolatedBelow c).entry v = s.entry v := by
  have each (l : List Chan) (s : State) : (l.foldl State.endIsolated s).entry v = s.entry v := by
    induction l generalizing s with
    | nil => rfl
    | cons d l ih => exact (ih _).trans (endIsolated_entry s d v)
  unfold State.endIsolatedBelow
  split
  · exact each _ s
  · rfl

theorem retire_entry_self (s : State) (v : Tag) (o : PieceOutcome) : (s.retire v o).entry v = none := by
  cases entry : s.entry v with
  | none => rw [Channels.retire_free entry]; exact entry
  | some e => rw [Channels.retire_eq entry]; exact State.entry_setEntry_self s v none

theorem retire_entry_of_ne (s : State) {v w : Tag} (h : w ≠ v) (o : PieceOutcome) :
    (s.retire v o).entry w = s.entry w := by
  cases entry : s.entry v with
  | none => rw [Channels.retire_free entry]
  | some e => rw [Channels.retire_eq entry]; exact State.entry_setEntry_of_ne s (Ne.symm h) none

theorem isolateEntry_entry_of_ne (s : State) {v w : Tag} (h : w ≠ v) : (s.isolateEntry v).entry w = s.entry w := by
  unfold State.isolateEntry
  split
  · rfl
  split
  case h_4 => exact State.entry_setEntry_of_ne s (Ne.symm h) _
  case h_5 => rfl
  all_goals rw [endIsolated_entry, retire_entry_of_ne _ h, endIsolatedBelow_entry]

theorem isolateEntry_entry_self {s : State} {v : Tag} {e : Entry} (h : (s.isolateEntry v).entry v = some e) : RunsOut e := by
  unfold State.isolateEntry at h
  split at h
  · rename_i free
    rw [free] at h
    cases h
  split at h
  case h_4 state =>
    rw [State.entry_setEntry_self] at h
    cases h
    exact .inr ⟨state, rfl⟩
  case h_5 state =>
    rename_i f entry _
    rw [entry] at h
    cases h
    exact .inl state
  all_goals
    rw [endIsolated_entry, retire_entry_self] at h
    cases h

theorem runsOut_isolateEntries {e : Entry} {v : Tag} (l : List Tag) (s : State)
    (mem : v ∈ l ∨ ∀ f, s.entry v = some f → RunsOut f) (h : (l.foldl State.isolateEntry s).entry v = some e) :
    RunsOut e := by
  induction l generalizing s with
  | nil => exact mem.elim (absurd · List.not_mem_nil) fun before => before e h
  | cons w l ih =>
    refine ih (s.isolateEntry w) ?_ h
    by_cases same : v = w
    · subst same
      exact .inr fun f => isolateEntry_entry_self
    · refine mem.imp (fun m => (List.mem_cons.1 m).resolve_left same) fun before f hf => before f ?_
      rwa [isolateEntry_entry_of_ne s same] at hf

/-! ## The whole isolation -/

theorem off_cutOff (s : State) : Off (cutOff s) := ⟨rfl, rfl, rfl, rfl, rfl, rfl, rfl⟩

/-- Every channel once isolated does not run. -/
theorem isolateChannels_not_running (l : List Chan) (s : State) (c : Chan) (h : c ∈ l ∨ (s.chan c).state ≠ .running) :
    ((l.foldl State.isolateChannel s).chan c).state ≠ .running := by
  have own (s : State) : ((s.isolateChannel c).chan c).state ≠ .running := by
    unfold State.isolateChannel
    dsimp only
    split
    case h_1 state | h_2 state => rw [state]; decide
    case h_6 state =>
      obtain ⟨f, fault⟩ := Channels.channelFault_frame (s.chan c) .isolated none
      rw [State.chan_setChan_self, fault]
      change (s.chan c).state ≠ _
      rw [state]; decide
    case h_7 state =>
      rw [State.chan_setChan_self]
      change (s.chan c).state ≠ _
      rw [state]; decide
    all_goals
      rw [State.chan_setChan_self]
      exact Channels.isolateBusy_state (s.chan c)
  induction l generalizing s with
  | nil => exact h.resolve_left List.not_mem_nil
  | cons d l ih =>
    refine ih _ ?_
    by_cases same : c = d
    · exact .inr (same ▸ own s)
    · exact h.imp (fun m => (List.mem_cons.1 m).resolve_left same) ((staysOff_isolateChannel s d).running c)

theorem still_halted (s : State) : Still (cutOff s) (halted s) := by
  have stays : StaysOff (cutOff s) (halted s) := staysOff_foldl staysOff_isolateChannel allChans _
  exact ⟨stays, stays.off (off_cutOff s), fun c =>
    isolateChannels_not_running allChans _ c (.inl (Descriptors.mem_allChans c))⟩

theorem still_channelsEnded (s : State) : Still (cutOff s) (channelsEnded s) :=
  still_foldl (fun _ c h => h.endIsolated c) allChans (still_foldl (fun _ v h => h.isolateEntry v) allTags (still_halted s))

theorem still_isolate (s : State) : Still (cutOff s) s.isolate := by
  rw [isolate_eq]
  exact (still_channelsEnded s).step (settle_off (still_channelsEnded s).off).1

theorem isolate_entry {v : Tag} {e : Entry} (h : s.isolate.entry v = some e) : RunsOut e := by
  have ended (l : List Chan) (u : State) : (l.foldl State.endIsolated u).entry v = u.entry v := by
    induction l generalizing u with
    | nil => rfl
    | cons d l ih => exact (ih _).trans (endIsolated_entry u d v)
  rw [isolate_eq, State.entry, (settle_off (still_channelsEnded s).off).2] at h
  change (channelsEnded s).entry v = _ at h
  rw [channelsEnded, ended] at h
  exact runsOut_isolateEntries allTags (halted s) (.inl (PeerBus.mem_allTags v)) h

theorem offTheBus_isolate (s : State) : OffTheBus s.isolate where
  state := (still_isolate s).off.state
  bus := (still_isolate s).off.bus
  timers := by rw [(still_isolate s).stays.own.blocks.station]; exact ⟨rfl, rfl⟩
  peers := peer_cleared (still_isolate s).off
  changes := (still_isolate s).stays.own.blocks.changes
  credit := (still_isolate s).off.credit
  slots := (still_isolate s).off.inbound
  inQueue := (still_isolate s).off.inQueue
  notices w := by
    rw [State.window, (still_isolate s).stays.own.blocks.windows]
    simp [cutOff]
  readyList := (still_isolate s).off.readyList
  entries _ _ := isolate_entry

/-- R14 leaves windows and views; of the host port only the STATION cause is set. -/
theorem isolate_blocks (s : State) : BlocksLeft (cutOff s) s.isolate := (still_isolate s).stays.own.blocks

theorem isolate_window (s : State) (w : WindowNo) : s.isolate.window w = { s.window w with notice := none } := by
  rw [State.window, (isolate_blocks s).windows]
  simp [cutOff, State.window]

/-- R14 step 2, R163: a running access runs on; the result of an inbound one is dropped. -/
theorem isolate_current {cur : CurrentAccess} (h : s.port.current = some cur) : s.isolate.port.current =
    some (match cur.access.requester with
      | .inboundWrite _ | .inboundRead _ => { cur with dropped := true }
      | .fetch _ | .load _ | .store _ | .record _ => cur) := by
  refine (still_isolate s).stays.current _ ?_
  simp only [cutOff, cutPort, h, Option.map_some]
  rfl

end Sys2Proof.Isolation
end

section
/-! SUPPORT. Which parts of the state each command may change: one table, and the proof that every command keeps to it. -/
namespace Sys2Proof.Scope

open Sys2Proof Sys2Proof.Machine Sys2Proof.Safety OwnSteps StationStates Isolation

-- Each thread of the elaborator reserves 1 GB under the memory limit of the check.
set_option Elab.async false

variable {s t u : State} {l : List Part}

/-- The parts that a reset puts at their reset contents, and so changes. -/
def resetParts : List Part :=
  [.cause, .windows, .incarnation, .config, .producer, .consumer, .params, .attnen, .views, .answer, .station]

/-- The parts that a command may change (R2, R4, R8, R68, R86, R164, R165, R172, R176). -/
def touched : Instr → List Part
  | .powerOn _ | .resetPinAssert _ => .memory :: resetParts
  | .softReset _ => resetParts
  | .resetEnd => [.bytes, .cause]
  | .configurationReadEnd _ => [.bytes, .station]
  | .join _ => [.incarnation, .answer, .station]
  | .leave _ | .clearIsolation _ => [.answer, .station]
  | .setWindow _ => [.windows, .answer]
  | .setRing _ => [.config, .producer, .consumer, .answer]
  | .start _ | .abort _ | .clear _ | .advanceMark _ | .unknownCommand _ _ => [.answer]
  | .readChannel _ | .readPeer _ | .readWindow _ | .readWatch _ | .readPeerChanges _ => [.views, .answer]
  | .consumerWrite _ => [.consumer]
  | .attnenWrite _ => [.attnen]
  | .registerWrite _ _ => [.params]
  | .writeHeard _ _ _ _ _ _ _ _ | .readHeard _ _ _ _ _ _ _ _ => [.slots, .station]
  | .malformedMessage _ | .joinHeard _ _ _ | .presenceHeard _ _ _ | .leaveHeard _ _ _ | .askHeard _ _ _
  | .grantHeard _ _ _ _ | .ackHeard _ _ _ _ _ _ | .dataHeard _ _ _ _ _ _ _ | .overheardMessage _ _ _ _
  | .ownNumberHeard | .transmissionEnd | .transmissionClash | .joinListenTimerExpiry => [.station]
  | .inboundAccessEnd _ => [.notices, .memory]
  | .storeEnd _ => [.memory]
  | .recordWriteEnd _ => [.producer, .memory]
  | _ => []

/-! ## Commands of the host -/

theorem leaves_commanded (answers : .answer ∈ l) (s : State) (code operand : Byte) :
    Leaves l s (commanded s code operand) := { answer := .inl answers }

theorem leaves_answer (answers : .answer ∈ l) (s : State) (code : Byte) (r : ResultCode) :
    Leaves l s (s.answer code r) := { answer := .inl answers }

/-- R174: a command writes CMD and RESULT around its decision. -/
theorem leaves_takeCommand {code operand : Byte} {decision : State → State × ResultCode} (answers : .answer ∈ l)
    (h : ∀ u : State, Leaves l u (decision u).1) : Leaves l s (s.takeCommand code operand decision) := by
  by_cases running : s.phase = .running
  · rw [State.takeCommand_running running]
    exact ((leaves_commanded answers s code operand).trans (h _)).trans (leaves_answer answers _ _ _)
  · rw [State.takeCommand_silent running]
    exact .refl s

theorem leaves_inStateOnly {st : StationState} {decision : State → State × ResultCode} (h : Leaves l s (decision s).1) :
    Leaves l s (s.inStateOnly st decision).1 :=
  PeerBus.inStateOnly_keeps (P := fun u => Leaves l s u) (fun _ => h) (.refl s)

/-- A window changes, its notice idle. -/
theorem leaves_setWindowAt {w : WindowNo} {x : Window}
    (windows : .windows ∈ l ∨ { x with notice := none } = { s.window w with notice := none }) (idle : x.notice = none) :
    Leaves l s (s.setWindowAt w x) where
  windows := windows.imp_right fun same v => by
    rw [State.window_setWindowAt]
    split
    · subst_vars; exact same
    · rfl
  notices := .inr fun v n pending => by
    rw [State.window_setWindowAt] at pending
    split at pending
    · rw [idle] at pending; cases pending
    · exact pending

/-- A reset: windows and inbound slots are cleared, and the latch keeps its bytes and check result (R5, R6). -/
theorem Leaves.of_reset (resets : resetParts ⊆ l) (bytes : t.latch.bytes = s.latch.bytes ∧ t.latch.check = s.latch.check)
    (windows : t.windows = .replicate 8 .cleared) (inbound : t.inbound = .cleared)
    (memory : .memory ∈ l ∨ t.written = s.written) : Leaves l s t where
  bytes := .inr bytes
  cause := .inl (resets (by decide))
  windows := .inl (resets (by decide))
  notices := .inr fun w n h => by
    rw [State.window, windows] at h
    simp [Window.cleared] at h
  incarnation := .inl (resets (by decide))
  config := .inl (resets (by decide))
  producer := .inl (resets (by decide))
  consumer := .inl (resets (by decide))
  params := .inl (resets (by decide))
  attnen := .inl (resets (by decide))
  views := .inl (resets (by decide))
  answer := .inl (resets (by decide))
  slots := .inr fun i _ => by simp [State.slot, inbound, InboundServer.cleared]
  memory := memory
  station := .inl (resets (by decide))

theorem leaves_beginStartReset (s : State) (kind : StartResetKind) (cut : List Bool) :
    Leaves (.memory :: resetParts) s (s.beginStartReset kind cut) := by
  obtain ⟨frame, -⟩ := applyCut_eq s cut
  refine .of_reset (List.subset_cons_self ..) ?_ rfl rfl (.inl (List.mem_cons_self ..))
  change (s.applyCut cut).latch.bytes = _ ∧ (s.applyCut cut).latch.check = _
  rw [frame]
  exact ⟨rfl, rfl⟩

theorem leaves_softResetBlocks (s : State) : Leaves resetParts s s.softResetBlocks :=
  iteInduction (motive := fun t => Leaves resetParts s t)
    (fun _ => .of_reset (List.Subset.refl _) ⟨rfl, rfl⟩ rfl rfl (.inr rfl))
    fun _ => .of_reset (List.Subset.refl _) ⟨rfl, rfl⟩ rfl rfl (.inr rfl)

/-- An entry into a station state. -/
theorem leaves_entered (station : .station ∈ l) (s : State) (st : StationState) : Leaves l s (entered s st) :=
  { station := .inl station }

theorem leaves_enterJoining (s : State) (inc : Byte) : Leaves [.incarnation, .answer, .station] s (s.enterJoining inc) := by
  rw [enterJoining_eq]
  exact { incarnation := .inl (by decide), station := .inl (by decide) }

theorem leaves_enterLeaving (s : State) : Leaves [.answer, .station] s s.enterLeaving := by
  rw [enterLeaving_eq]
  exact { station := .inl (by decide) }

/-- Windows but for their notices, which become idle (R88). -/
theorem leaves_noticesCleared (h : t.windows = s.windows.map fun w => { w with notice := none }) :
    (∀ w, { t.window w with notice := none } = { s.window w with notice := none }) ∧
      ∀ w n, (t.window w).notice = some n → (s.window w).notice = some n := by
  have each (w : WindowNo) : t.window w = { s.window w with notice := none } := by
    rw [State.window, h]
    simp [State.window]
  exact ⟨fun w => by rw [each], fun w n pending => by rw [each] at pending; cases pending⟩

theorem leaves_endSession (station : .station ∈ l) (s : State) : Leaves l s s.endSession := by
  obtain ⟨windows, notices⟩ := leaves_noticesCleared (s := s) (t := s.endSession) (by rw [endSession_eq]; rfl)
  rw [endSession_eq] at windows notices ⊢
  exact { windows := .inr windows, notices := .inr notices, station := .inl station }

theorem leaves_isolate (station : .station ∈ l) (s : State) : Leaves l s s.isolate := by
  have blocks := isolate_blocks s
  have ring := (still_isolate s).stays.own.ring
  obtain ⟨windows, notices⟩ := leaves_noticesCleared (s := s) (t := s.isolate) (by rw [blocks.windows]; rfl)
  exact {
    bytes := .inr (by rw [blocks.latch]; exact ⟨rfl, rfl⟩)
    cause := .inr (by rw [blocks.latch]; rfl)
    windows := .inr windows
    notices := .inr notices
    incarnation := .inr (by rw [blocks.station]; rfl)
    config := .inr ring.config
    producer := .inr ring.producer
    consumer := .inr ring.consumer
    params := .inr (by rw [blocks.host]; rfl)
    attnen := .inr (by rw [blocks.host]; rfl)
    views := .inr (by rw [blocks.host]; rfl)
    answer := .inr (by rw [blocks.host]; exact ⟨rfl, rfl⟩)
    slots := .inr fun i _ => by simp [State.slot, (offTheBus_isolate s).slots, InboundServer.cleared]
    memory := .inr blocks.written
    station := .inl station }

/-! ## Messages heard and sent -/

/-- The line moves: nothing queued or sent changes. -/
theorem leaves_line (s : State) (r : SlotRef) (x : Line) (n : Nat) :
    Leaves l s { s with bus := { s.bus with slotRef := r, line := x, slotClock := n } } :=
  { station := .inr (stationKept_of_quiet {} rfl rfl) }

theorem leaves_hearFrom (station : .station ∈ l) {source : Byte} {ok : Bool} {take : Station → State → State}
    (h : ∀ p u, Leaves l u (take p u)) : Leaves l s (s.hearFrom source ok take) := by
  have line (r : SlotRef) : Leaves l s (s.activityEnd r) := leaves_line s r .idle 0
  unfold State.hearFrom
  refine leaves_ite (.refl s) (leaves_ite (line _) (leaves_ite (leaves_isolate station s) ?_))
  split
  · exact line _
  · exact leaves_ite ((line _).trans (h _ _)).settle (line _)

/-- R7: a station that may send is JOINING, ONLINE or LEAVING. -/
theorem station_of_transmitterOn (on : s.transmitterOn = true) :
    s.station.state = some .joining ∨ s.station.state = some .online ∨ s.station.state = some .leaving := by
  simpa [State.transmitterOn, State.receiverOn, State.inState, or_assoc] using on

/-- A message goes out, taken from the control queue if it is a LEAVE. -/
theorem leaves_transmitNow (on : s.transmitterOn = true) {b : BusInterface} {item : Outgoing}
    (queue : ∀ c ∈ b.controlQueue, c ∈ s.bus.controlQueue) (leave : item = .control .leave → .leave ∈ s.bus.controlQueue)
    (m : Message) : Leaves l s (State.transmitNow { s with bus := b } item m) :=
  { station := .inr ⟨rfl, fun kept => {
      transmits := fun _ => station_of_transmitterOn on
      leave := fun pending => kept.leave (leavePending_iff.2 (.inl
        ((leavePending_iff.1 pending).elim (queue _) fun sending => leave (Option.some.inj sending))))
      silent := kept.silent }⟩ }

theorem leaves_send (on : s.transmitterOn = true) (repliesOnly : Bool) : Leaves l s (s.send repliesOnly) := by
  unfold State.send
  split
  · refine leaves_transmitNow on ?_ ?_ _
    · exact fun _ => id
    · exact nofun
  refine leaves_ite (.refl s) ?_
  split
  case h_1 c rest queue =>
    refine leaves_transmitNow on (fun d mem => ?_) (fun isLeave => ?_) _
    · rw [queue]
      exact List.mem_cons_of_mem c mem
    · rw [queue, Outgoing.control.inj isLeave]
      exact List.mem_cons_self ..
  case h_2 =>
    unfold State.sendRequest
    split
    case h_1 => exact .refl s
    case h_2 v rest _ =>
      split
      case h_1 => exact .refl s
      case h_2 e _ =>
      have marked : Leaves l s (s.setEntry v (some { e with inTransmission := true })) := .of_blocks
      have on' : (s.setEntry v (some { e with inTransmission := true })).transmitterOn = true := on
      refine marked.trans (leaves_transmitNow on' ?_ ?_ _)
      · exact fun _ => id
      · exact nofun

theorem transmitterOn_of_due {a b : Bool} (due : (s.mayTransmit && a && b) = true) : s.transmitterOn = true := by
  simp only [State.mayTransmit, Bool.and_eq_true] at due
  exact due.1.1.1.1

theorem leaves_sendCounted (on : s.transmitterOn = true) (n : Nat) (repliesOnly : Bool) :
    Leaves l s ((s.countTo n).send repliesOnly) :=
  (leaves_line s _ _ n).trans (leaves_send (s := s.countTo n) on repliesOnly)

/-- The report of a message other than the LEAVE (R34, R83, R135). -/
theorem leaves_reportSent_of_ne {item : Outgoing} (other : item ≠ .control .leave) (s : State) :
    Leaves l s (s.reportSent item) := by
  cases item with
  | reply r =>
    simp only [State.reportSent]
    split
    · have freed (i : SlotNo) : Leaves l s (s.setSlot i none) := leaves_setSlot (.inr fun _ => rfl)
      exact (freed _).trans {}
    · exact {}
  | control c =>
    cases c with
    | leave => exact absurd rfl other
    | join | presence | ask _ _ | grant _ _ _ => exact .refl s
  | request v =>
    simp only [State.reportSent]
    exact .of_blocks

theorem leaves_reportSent (station : .station ∈ l) (s : State) (item : Outgoing) : Leaves l s (s.reportSent item) := by
  by_cases isLeave : item = .control .leave
  · subst isLeave
    exact leaves_endSession station s
  · exact leaves_reportSent_of_ne isLeave s

theorem leaves_endTransmission (s : State) (x : Transmission) : Leaves [.station] s (s.endTransmission x) := by
  have idle (b : BusInterface) : Leaves [.station] s { s with bus := b } := { station := .inl (by decide) }
  exact leaves_ite (idle _) ((idle _).trans (leaves_reportSent (by decide) _ _))

theorem leaves_returnToQueue (station : .station ∈ l) (s : State) (item : Outgoing) : Leaves l s (s.returnToQueue item) := by
  cases item with
  | reply r => exact { station := .inl station }
  | control c => exact { station := .inl station }
  | request v =>
    simp only [State.returnToQueue]
    split
    · exact .refl s
    · exact leaves_ite .of_blocks { station := .inl station }

theorem leaves_clash (s : State) (x : Transmission) : Leaves [.station] s (s.clash x) := by
  have cold (b : BusInterface) : Leaves [.station] s { s with bus := b } := { station := .inl (by decide) }
  exact leaves_ite ((cold _).trans (leaves_isolate (by decide) _))
    (leaves_ite (cold _) ((cold _).trans (leaves_returnToQueue (by decide) _ _)))

/-! ## Accesses that end -/

/-- R159, R162: only a write access reaches local memory. -/
theorem leaves_finishAccess {cur : CurrentAccess} {e : AccessEnd} {report : State → State}
    (memory : .memory ∈ l ∨ cur.access.requester.isWrite = false) (h : ∀ u, Leaves l u (report u)) :
    Leaves l s (s.finishAccess cur e report) := by
  have wrote : Leaves l s (s.applyWrite cur.access e) := by
    unfold State.applyWrite
    split
    case isTrue write => exact { memory := .inl (memory.resolve_right (by rw [write]; decide)) }
    case isFalse => exact .refl s
  have ended (u : State) : Leaves l u { u with port := { u.port with current := none } } := {}
  unfold State.finishAccess
  exact ((leaves_ite wrote (wrote.trans (h _))).trans (ended _)).settle

/-! ## Every command -/

/-- Every command changes only the parts that the rules give it. -/
theorem leaves_exec (c : Instr) (h : exec c s = .next t) : Leaves (touched c) s t := by
  cases c <;> obtain rfl := Host.Outcome.next.inj h <;> dsimp only [touched]
  case powerOn cut => exact (leaves_beginStartReset s .powerOn cut).trans { cause := .inl (by decide) }
  case resetPinAssert => exact leaves_beginStartReset s _ _
  case resetEnd =>
    split
    case h_1 kind reset =>
      have silent (kept : BusKept s) : s.station.state = none := kept.silent (by rw [reset]; exact nofun)
      exact {
        bytes := .inl (by decide)
        cause := .inl (by decide)
        station := .inr ⟨rfl, fun kept => ⟨kept.transmits, kept.leave, fun _ => silent kept⟩⟩ }
    all_goals exact .refl s
  case configurationReadEnd =>
    exact leaves_ite { bytes := .inl (by decide), station := .inl (by decide) } (.refl s)
  case join =>
    refine leaves_takeCommand (by decide) fun u => leaves_inStateOnly ?_
    split
    · exact leaves_enterJoining u _
    · exact .refl u
  case leave =>
    refine leaves_takeCommand (by decide) fun u => leaves_inStateOnly ?_
    split
    · exact (leaves_enterLeaving u).settle
    · exact .refl u
  case clearIsolation =>
    refine leaves_takeCommand (by decide) fun u => leaves_inStateOnly ?_
    split
    · exact leaves_entered (by decide) u .offline
    · exact .refl u
  case softReset => exact leaves_takeCommand (by decide) leaves_softResetBlocks
  case setWindow =>
    refine leaves_takeCommand (by decide) fun u => leaves_inStateOnly ?_
    split
    · split
      · exact leaves_setWindowAt (.inl (by decide)) rfl
      · exact .refl u
    · exact .refl u
  case setRing =>
    refine leaves_takeCommand (by decide) fun u => leaves_inStateOnly ?_
    split
    · exact { config := .inl (by decide), producer := .inl (by decide), consumer := .inl (by decide) }
    · exact .refl u
  case start =>
    refine leaves_takeCommand (by decide) fun u => ?_
    split
    · exact .refl u
    split
    · exact .refl u
    split
    · exact .refl u
    split
    · exact .refl u
    split
    · exact Leaves.settle .of_blocks
    · exact .refl u
  case abort =>
    refine leaves_takeCommand (by decide) fun u => ?_
    split
    · exact .refl u
    · exact leaves_abortChannel u _
  case clear =>
    refine leaves_takeCommand (by decide) fun u => ?_
    split
    · exact .refl u
    split
    · exact .of_blocks
    · exact .refl u
  case advanceMark =>
    exact leaves_takeCommand (by decide) fun u => leaves_inStateOnly (leaves_advanceMark u).settle
  case readChannel =>
    refine leaves_takeCommand (by decide) fun u => ?_
    split
    · exact .refl u
    split
    · exact .refl u
    · exact { views := .inl (by decide) }
  case readPeer | readWindow =>
    refine leaves_takeCommand (by decide) fun u => ?_
    split
    · exact .refl u
    · exact { views := .inl (by decide) }
  case readWatch =>
    refine leaves_takeCommand (by decide) fun u => ?_
    split
    case h_1 => exact .refl u
    case h_2 w _ =>
      have shown (v : Vector Word 8) : Leaves [.views, .answer] u (u.setViews v) := { views := .inl (by decide) }
      exact (shown _).trans (leaves_setWindowAt (.inr rfl) rfl)
  case readPeerChanges => exact leaves_takeCommand (by decide) fun u => { views := .inl (by decide) }
  case unknownCommand => exact leaves_ite (.refl s) (leaves_takeCommand (by decide) fun u => .refl u)
  case consumerWrite =>
    have taken (v : Word) : Leaves [.consumer] s { s with ring := { s.ring with consumer := v } } :=
      { consumer := .inl (by decide) }
    exact leaves_ite (leaves_ite ((taken _).trans (leaves_testRecordWrite _)).settle {}) (.refl s)
  case attnWrite => exact leaves_ite {} (.refl s)
  case attnenWrite => exact leaves_ite { attnen := .inl (by decide) } (.refl s)
  case registerWrite =>
    refine leaves_ite ?_ (.refl s)
    split
    · exact { params := .inl (by decide) }
    · exact .refl s
  case activityBegin => exact leaves_ite (leaves_line s _ _ _) (.refl s)
  case badCheckActivity | sourceNOrHigherHeard => exact leaves_ite (leaves_line s _ _ _) (.refl s)
  case malformedMessage => exact leaves_hearFrom (by decide) fun p u => .refl u
  case ownNumberHeard =>
    exact leaves_ite (leaves_ite (leaves_line s _ _ _) (leaves_isolate (by decide) s)) (.refl s)
  case overheardMessage =>
    exact leaves_ite (.refl s) (leaves_hearFrom (by decide) fun p u => leaves_presenceUpdate u p _ _ _)
  case joinHeard =>
    exact leaves_hearFrom (by decide) fun p u => (leaves_presenceUpdate u p _ _ _).trans (leaves_queuePresence _)
  case presenceHeard => exact leaves_hearFrom (by decide) fun p u => leaves_presenceUpdate u p _ _ _
  case leaveHeard => exact leaves_hearFrom (by decide) fun p u => leaves_leaveUpdate u p _ _
  case askHeard =>
    exact leaves_hearFrom (by decide) fun p u => (leaves_presenceUpdate u p _ _ _).trans (leaves_takeAsk _ p _)
  case grantHeard =>
    exact leaves_hearFrom (by decide) fun p u => (leaves_presenceUpdate u p _ _ _).trans (leaves_takeGrant _ p _ _)
  case writeHeard | readHeard =>
    exact leaves_hearFrom (by decide) fun p u =>
      (leaves_presenceUpdate u p _ _ _).trans (leaves_takeRequest (by decide) _ _)
  case ackHeard | dataHeard => exact leaves_hearFrom (by decide) fun p u => leaves_deliverReply u p _ _ _ _ _ _ _
  case granting => exact leaves_ownRow fun _ => leaves_granting
  case leaveQueued => exact leaves_ownRow fun _ => leaves_leaveQueued
  case asking => exact leaves_ownRow fun _ => leaves_asking
  case creditHanding => exact leaves_ownRow fun _ => leaves_creditHanding
  case entryAllocation => exact leaves_ownRow fun _ => leaves_entryAllocation
  case descriptorEnd => exact leaves_ownRow fun _ => leaves_descriptorEnd
  case accessGrant => exact leaves_ownRow fun _ => leaves_accessGrant
  case recordWriteIssue => exact leaves_ownRow fun _ => leaves_recordWriteIssue
  case busSlotStart | coldGuardExpiry =>
    split
    · exact .refl s
    · split
      case isTrue due => exact leaves_sendCounted (transmitterOn_of_due due) _ _
      case isFalse => exact .refl s
  case transmissionEnd =>
    split
    · exact .refl s
    · exact (leaves_endTransmission s _).settle
  case transmissionClash =>
    split
    · exact .refl s
    · exact (leaves_clash s _).settle
  case joinListenTimerExpiry => exact leaves_ite (Leaves.settle { station := .inl (by decide) }) (.refl s)
  case presenceTimerExpiry =>
    have timer (u : State) : Leaves [] u { u with station := { u.station with presence := .running s.presenceInterval } } :=
      { station := .inr (stationKept_of_quiet {} rfl rfl) }
    have station : s.queuePresence.station = s.station := by simp
    exact leaves_ite ((leaves_queuePresence s).trans (station ▸ timer s.queuePresence)) (.refl s)
  case silenceTimerExpiry => exact leaves_ite (leaves_silenceUpdate s _).settle (.refl s)
  case askTimerExpiry =>
    exact leaves_ite (leaves_ite (leaves_ask s _).settle (Leaves.settle .of_blocks)) (.refl s)
  case replyTimerExpiry =>
    split
    · exact .refl s
    · exact leaves_ite (leaves_expireReply s _ _).settle (.refl s)
  case waitTimerExpiry =>
    exact leaves_ite (Leaves.settle (Leaves.trans .of_blocks (leaves_failChannel _ _ _ _))) (.refl s)
  case descriptorFetchEnd =>
    split
    · exact .refl s
    split
    case h_1 fetch => exact leaves_finishAccess (.inr (by rw [fetch]; rfl)) fun u => leaves_endFetch u _ _
    all_goals exact .refl s
  case loadEnd =>
    split
    · exact .refl s
    split
    case h_1 load =>
      refine leaves_finishAccess (.inr (by rw [load]; rfl)) fun u => ?_
      split
      · exact leaves_ite (leaves_endLoad u _ _ _) (.refl u)
      · exact .refl u
    all_goals exact .refl s
  case storeEnd =>
    split
    · exact .refl s
    split
    case h_1 =>
      refine leaves_finishAccess (.inl (by decide)) fun u => ?_
      split
      · exact leaves_ite (leaves_retire u _ _) (.refl u)
      · exact .refl u
    all_goals exact .refl s
  case inboundAccessEnd =>
    split
    · exact .refl s
    split
    case h_1 | h_2 => exact leaves_finishAccess (.inl (by decide)) fun u => leaves_endSlotAccess (by decide) u _ _ _
    all_goals exact .refl s
  case recordWriteEnd =>
    split
    · exact .refl s
    split
    case h_1 => exact leaves_finishAccess (.inl (by decide)) fun u => leaves_endRecord (by decide) u _ _
    all_goals exact .refl s

/-! ## The table read backwards -/

section

variable {c : Instr}

theorem of_bytes_touched (h : .bytes ∈ touched c) : c = .resetEnd ∨ ∃ answers, c = .configurationReadEnd answers := by
  cases c
  case resetEnd => exact .inl rfl
  case configurationReadEnd => exact .inr ⟨_, rfl⟩
  all_goals exact absurd h (of_decide_eq_false rfl)

theorem of_cause_touched (h : .cause ∈ touched c) : c = .resetEnd ∨ isReset c = true := by
  cases c
  case resetEnd => exact .inl rfl
  case powerOn | resetPinAssert | softReset => exact .inr rfl
  all_goals exact absurd h (of_decide_eq_false rfl)

theorem of_windows_touched (h : .windows ∈ touched c) : isReset c = true ∨ ∃ op, c = .setWindow op := by
  cases c
  case powerOn | resetPinAssert | softReset => exact .inl rfl
  case setWindow => exact .inr ⟨_, rfl⟩
  all_goals exact absurd h (of_decide_eq_false rfl)

theorem of_notices_touched (h : .notices ∈ touched c) : ∃ outcome, c = .inboundAccessEnd outcome := by
  cases c
  case inboundAccessEnd => exact ⟨_, rfl⟩
  all_goals exact absurd h (of_decide_eq_false rfl)

theorem of_incarnation_touched (h : .incarnation ∈ touched c) : isReset c = true ∨ ∃ op, c = .join op := by
  cases c
  case powerOn | resetPinAssert | softReset => exact .inl rfl
  case join => exact .inr ⟨_, rfl⟩
  all_goals exact absurd h (of_decide_eq_false rfl)

theorem of_config_touched (h : .config ∈ touched c) : isReset c = true ∨ ∃ op, c = .setRing op := by
  cases c
  case powerOn | resetPinAssert | softReset => exact .inl rfl
  case setRing => exact .inr ⟨_, rfl⟩
  all_goals exact absurd h (of_decide_eq_false rfl)

theorem of_producer_touched (h : .producer ∈ touched c) :
    isReset c = true ∨ (∃ op, c = .setRing op) ∨ ∃ outcome, c = .recordWriteEnd outcome := by
  cases c
  case powerOn | resetPinAssert | softReset => exact .inl rfl
  case setRing => exact .inr (.inl ⟨_, rfl⟩)
  case recordWriteEnd => exact .inr (.inr ⟨_, rfl⟩)
  all_goals exact absurd h (of_decide_eq_false rfl)

theorem of_consumer_touched (h : .consumer ∈ touched c) :
    isReset c = true ∨ (∃ op, c = .setRing op) ∨ ∃ v, c = .consumerWrite v := by
  cases c
  case powerOn | resetPinAssert | softReset => exact .inl rfl
  case setRing => exact .inr (.inl ⟨_, rfl⟩)
  case consumerWrite => exact .inr (.inr ⟨_, rfl⟩)
  all_goals exact absurd h (of_decide_eq_false rfl)

theorem of_params_touched (h : .params ∈ touched c) : isReset c = true ∨ ∃ a v, c = .registerWrite a v := by
  cases c
  case powerOn | resetPinAssert | softReset => exact .inl rfl
  case registerWrite => exact .inr ⟨_, _, rfl⟩
  all_goals exact absurd h (of_decide_eq_false rfl)

theorem of_attnen_touched (h : .attnen ∈ touched c) : isReset c = true ∨ ∃ v, c = .attnenWrite v := by
  cases c
  case powerOn | resetPinAssert | softReset => exact .inl rfl
  case attnenWrite => exact .inr ⟨_, rfl⟩
  all_goals exact absurd h (of_decide_eq_false rfl)

theorem of_views_touched (h : .views ∈ touched c) : isReset c = true ∨ isReadCommand c = true := by
  cases c
  case powerOn | resetPinAssert | softReset => exact .inl rfl
  case readChannel | readPeer | readWindow | readWatch | readPeerChanges => exact .inr rfl
  all_goals exact absurd h (of_decide_eq_false rfl)

theorem of_answer_touched (h : .answer ∈ touched c) : isReset c = true ∨ isCommand c = true := by
  cases c
  case powerOn | resetPinAssert | softReset => exact .inl rfl
  case join | leave | clearIsolation | setWindow | setRing | start | abort | clear | advanceMark | unknownCommand
      | readChannel | readPeer | readWindow | readWatch | readPeerChanges => exact .inr rfl
  all_goals exact absurd h (of_decide_eq_false rfl)

theorem of_slots_touched (h : .slots ∈ touched c) :
    (∃ source inc tag seq low window offset payload, c = .writeHeard source inc tag seq low window offset payload) ∨
      ∃ source inc tag seq low window offset length, c = .readHeard source inc tag seq low window offset length := by
  cases c
  case writeHeard => exact .inl ⟨_, _, _, _, _, _, _, _, rfl⟩
  case readHeard => exact .inr ⟨_, _, _, _, _, _, _, _, rfl⟩
  all_goals exact absurd h (of_decide_eq_false rfl)

end

/-- Settles O59: a part that has changed stands in the table's row of the command. -/
theorem onlyTheseCommandsChange : Obligations.OnlyTheseCommandsChange := by
  intro c s t h
  have leaves := leaves_exec c h
  refine ⟨fun changed => of_bytes_touched (leaves.bytes.resolve_right (not_and_or.2 changed)),
    fun changed => of_cause_touched (leaves.cause.resolve_right changed),
    fun w changed => of_windows_touched (leaves.windows.resolve_right fun same => changed (same w)),
    fun w n now before => of_notices_touched (leaves.notices.resolve_right fun same => before (same w n now)),
    fun changed => of_incarnation_touched (leaves.incarnation.resolve_right changed),
    fun changed => of_config_touched (leaves.config.resolve_right changed),
    fun changed => of_producer_touched (leaves.producer.resolve_right changed),
    fun changed => of_consumer_touched (leaves.consumer.resolve_right changed),
    fun changed => of_params_touched (leaves.params.resolve_right changed),
    fun changed => of_attnen_touched (leaves.attnen.resolve_right changed),
    fun changed => of_views_touched (leaves.views.resolve_right changed),
    fun changed => of_answer_touched (leaves.answer.resolve_right (not_and_or.2 changed)),
    fun i free filled => of_slots_touched (leaves.slots.resolve_right fun same => filled (same i free))⟩

end Sys2Proof.Scope
end

section
/-! SUPPORT. The station state and the transmitter's invariant under every command that may change them (R7 to R16). -/
namespace Sys2Proof.Transitions

open Sys2Proof Sys2Proof.Machine Sys2Proof.Safety Scope StationStates Isolation

-- Each thread of the elaborator reserves 1 GB under the memory limit of the check.
set_option Elab.async false

variable {s t : State} {c : Instr}

/-- What section 1.4 asks of one command: the transmitter's invariant stands after it, a change of station state is one of
the table, and an entry into a station state sets the STATION cause. -/
structure Moved (c : Instr) (s t : State) : Prop where
  kept : BusKept t
  allowed : t.station.state ≠ s.station.state → stateChangeAllowed c s.station.state t.station.state
  cause : t.station.state ≠ s.station.state → t.station.state ≠ none → t.host.stationCause = true

theorem Moved.of_kept (kept : BusKept s) (h : StationKept s t) : Moved c s t :=
  ⟨h.2 kept, fun changed => absurd h.1 changed, fun changed => absurd h.1 changed⟩

/-- The part's own steps move neither the station state nor its cause. -/
theorem Moved.settle (h : Moved c s t) : Moved c s t.settle := by
  obtain ⟨same, kept⟩ : StationKept t t.settle := (leaves_settle (l := []) t).station.resolve_left (by decide)
  refine ⟨kept h.kept, same ▸ h.allowed, ?_⟩
  rw [same, (OwnSteps.ownLeaves_settle t).blocks.host]
  exact h.cause

/-- An entry into a station state, with the STATION cause (R16). -/
theorem Moved.of_entry {st : StationState} (kept : BusKept t) (state : t.station.state = some st)
    (cause : t.host.stationCause = true) (allowed : stateChangeAllowed c s.station.state (some st)) : Moved c s t :=
  ⟨kept, fun _ => state ▸ allowed, fun _ _ => cause⟩

/-! ## The transmitter's invariant -/

/-- A station state stands in the running phase only. -/
theorem running_of_state (kept : BusKept s) (h : s.station.state ≠ none) : s.phase = .running :=
  Decidable.byContradiction fun silent => h (kept.silent silent)

/-- Nobody transmits outside JOINING, ONLINE and LEAVING (R7). -/
theorem transmit_of_off (kept : BusKept s) (joining : s.station.state ≠ some .joining)
    (online : s.station.state ≠ some .online) (leaving : s.station.state ≠ some .leaving) : s.bus.transmit = none :=
  Decidable.byContradiction fun sending => (kept.transmits sending).elim joining (Or.rec online leaving)

theorem leavePending_of_not_leaving (kept : BusKept s) (h : s.station.state ≠ some .leaving) : s.leavePending = false :=
  Bool.eq_false_iff.2 fun pending => h (kept.leave pending)

/-- Nothing is sent and no LEAVE waits where the transmitter is off. -/
theorem idle_of_off (kept : BusKept s) (joining : s.station.state ≠ some .joining) (online : s.station.state ≠ some .online)
    (leaving : s.station.state ≠ some .leaving) : s.bus.transmit = none ∧ .leave ∉ s.bus.controlQueue :=
  ⟨transmit_of_off kept joining online leaving, fun leave =>
    absurd (leavePending_iff.2 (.inl leave)) (by rw [leavePending_of_not_leaving kept leaving]; exact nofun)⟩

/-- Nothing is being sent and no LEAVE waits. -/
theorem busKept_of_idle (transmit : t.bus.transmit = none) (leave : .leave ∉ t.bus.controlQueue)
    (silent : t.phase ≠ .running → t.station.state = none) : BusKept t where
  transmits sending := absurd transmit sending
  leave pending := absurd pending (by simp [leavePending_iff, transmit, leave])
  silent := silent

theorem busKept_isolate (kept : BusKept s) (h : s.station.state ≠ none) : BusKept s.isolate := by
  have bus := (offTheBus_isolate s).bus
  refine busKept_of_idle (by rw [bus]; rfl) (by rw [bus]; exact List.not_mem_nil) fun silent => ?_
  rw [(isolate_blocks s).phase] at silent
  exact absurd (running_of_state kept h) silent

/-! ## Isolation by what the line brings (R13) -/

/-- The rows upon which the station may be isolated (R13). -/
def mayIsolate (c : Instr) : Prop := ∀ before, before = some .joining ∨ before = some .online ∨ before = some .leaving →
  stateChangeAllowed c before (some .isolated)

theorem moved_isolate (kept : BusKept s)
    (on : s.station.state = some .joining ∨ s.station.state = some .online ∨ s.station.state = some .leaving)
    (row : mayIsolate c := by exact fun _ before => ⟨before, rfl⟩) : Moved c s s.isolate := by
  refine .of_entry (busKept_isolate kept ?_) (offTheBus_isolate s).state ?_ (row _ on)
  · rcases on with h | h | h <;> rw [h] <;> exact nofun
  · rw [(isolate_blocks s).host]; rfl

theorem station_of_listening (h : s.listening = true) :
    s.station.state = some .joining ∨ s.station.state = some .online ∨ s.station.state = some .leaving :=
  station_of_transmitterOn (Bool.and_eq_true .. ▸ h : _ ∧ _).1

theorem moved_hearFrom (kept : BusKept s) {source : Byte} {ok : Bool} {take : Station → State → State}
    (h : ∀ p u, Leaves [.slots] u (take p u)) (row : mayIsolate c := by exact fun _ before => ⟨before, rfl⟩) :
    Moved c s (s.hearFrom source ok take) := by
  have line (r : SlotRef) : StationKept s (s.activityEnd r) := stationKept_of_quiet {} rfl rfl
  unfold State.hearFrom
  split
  · exact .of_kept kept (stationKept_of_quiet (.refl _) rfl rfl)
  rename_i listening
  split
  · exact .of_kept kept (line _)
  split
  · exact moved_isolate kept (station_of_listening (by simpa using listening)) row
  split
  · exact .of_kept kept (line _)
  split
  · rename_i p _ _
    obtain ⟨same, keeps⟩ := (h p (s.activityEnd (.warm p))).station.resolve_left (by decide)
    exact Moved.settle (.of_kept kept ⟨same.trans (line _).1, keeps ∘ (line _).2⟩)
  · exact .of_kept kept (line _)

/-! ## Resets and the configuration (R5, R6, R16) -/

theorem busKept_reset {phase : Phase} {latch : Latch} {w : Memory} {pending : List Instr} :
    BusKept { State.reset with phase := phase, latch := latch, written := w, pending := pending } :=
  busKept_of_idle rfl List.not_mem_nil fun _ => rfl

theorem moved_powerOn {cut : List Bool} (h : exec (.powerOn cut) s = .next t) : Moved (.powerOn cut) s t := by
  obtain ⟨⟨w, effect, -⟩, -⟩ := startResetClearsEveryBlock cut s
  obtain rfl := Host.Outcome.next.inj (effect.symm.trans h)
  exact ⟨busKept_reset, fun _ => rfl, fun _ entered => absurd rfl entered⟩

theorem moved_resetPinAssert {cut : List Bool} (h : exec (.resetPinAssert cut) s = .next t) :
    Moved (.resetPinAssert cut) s t := by
  obtain ⟨-, w, effect, -⟩ := startResetClearsEveryBlock cut s
  obtain rfl := Host.Outcome.next.inj (effect.symm.trans h)
  exact ⟨busKept_reset, fun _ => rfl, fun _ entered => absurd rfl entered⟩

/-- Outside the running phase a host write changes nothing. -/
theorem moved_of_silent (kept : BusKept s) (silent : s.phase ≠ .running) (write : isHostWrite c = true)
    (h : exec c s = .next t) : Moved c s t := by
  obtain rfl := Host.Outcome.next.inj (((hostPortIsSilentOutsideRunning s silent).2.2 c write).symm.trans h)
  exact .of_kept kept ⟨rfl, id⟩

theorem moved_softReset {op : Byte} (running : s.phase = .running) (h : exec (.softReset op) s = .next t) :
    Moved (.softReset op) s t := by
  obtain rfl := Host.Outcome.next.inj ((softResetReturnsToResetContents op s running).symm.trans h)
  split
  case isTrue fault =>
    exact ⟨busKept_of_idle rfl List.not_mem_nil fun _ => rfl, fun _ => .inl ⟨fault, rfl⟩,
      fun _ entered => absurd rfl entered⟩
  case isFalse noFault =>
    exact .of_entry (busKept_of_idle rfl List.not_mem_nil fun silent => absurd rfl silent) rfl rfl (.inr ⟨noFault, rfl⟩)

theorem moved_configurationReadEnd {answers : List (Option Byte)} (kept : BusKept s)
    (h : exec (.configurationReadEnd answers) s = .next t) : Moved (.configurationReadEnd answers) s t := by
  obtain ⟨effect, noEvent⟩ := startReadsTheConfiguration.2 answers s
  by_cases reading : s.phase = .reading
  · obtain rfl := Host.Outcome.next.inj ((effect reading).symm.trans h)
    have before : s.station.state = none := kept.silent (by rw [reading]; exact nofun)
    obtain ⟨transmit, leave⟩ := idle_of_off kept (by rw [before]; exact nofun) (by rw [before]; exact nofun)
      (by rw [before]; exact nofun)
    refine .of_entry (busKept_of_idle transmit leave fun silent => absurd rfl silent) rfl rfl ⟨before, ?_⟩
    split
    · exact .inl rfl
    · exact .inr rfl
  · obtain rfl := Host.Outcome.next.inj ((noEvent reading).symm.trans h)
    exact .of_kept kept ⟨rfl, id⟩

/-! ## Station commands and timers (R8 to R12, R15) -/

theorem stationKept_answeredOnly (s : State) (code op result : Byte) : StationKept s (answeredOnly s code op result) :=
  stationKept_of_quiet {} rfl rfl

theorem stationKept_resulted (s : State) (code result : Byte) : StationKept s (resulted s code result) :=
  stationKept_of_quiet {} rfl rfl

theorem Moved.resulted (h : Moved c s t) (code result : Byte) : Moved c s (resulted t code result) :=
  ⟨(stationKept_resulted t code result).2 h.kept, h.allowed, h.cause⟩

theorem moved_join {op : Byte} (kept : BusKept s) (running : s.phase = .running) (h : exec (.join op) s = .next t) :
    Moved (.join op) s t := by
  obtain ⟨refused, taken, bad⟩ := joinEntersJoining op s running
  by_cases offline : s.station.state = some .offline
  swap
  · obtain rfl := Host.Outcome.next.inj ((refused offline).symm.trans h)
    exact .of_kept kept (stationKept_answeredOnly ..)
  by_cases good : s.ring.config.isSome = true ∧ (s.param 0).toNat ≤ 255
  · obtain rfl := Host.Outcome.next.inj ((taken offline good).symm.trans h)
    obtain ⟨transmit, leave⟩ := idle_of_off kept (by rw [offline]; exact nofun) (by rw [offline]; exact nofun)
      (by rw [offline]; exact nofun)
    have allowed : stateChangeAllowed (.join op) s.station.state (some .joining) := ⟨offline, rfl⟩
    refine Moved.resulted (.of_entry ?_ rfl rfl allowed) _ _
    refine busKept_of_idle transmit (fun queued => ?_) fun silent => absurd running silent
    exact (List.mem_append.1 queued).elim leave fun join => by simp at join
  · obtain rfl := Host.Outcome.next.inj ((bad offline good).symm.trans h)
    exact .of_kept kept (stationKept_answeredOnly ..)

theorem moved_leave {op : Byte} (kept : BusKept s) (running : s.phase = .running) (h : exec (.leave op) s = .next t) :
    Moved (.leave op) s t := by
  by_cases online : s.station.state = some .online
  swap
  · obtain rfl := Host.Outcome.next.inj ((exec_leave_wrongState running online).symm.trans h)
    exact .of_kept kept (stationKept_answeredOnly ..)
  obtain ⟨taken, busy⟩ := leaveAndClearIsolation.1 op s running online
  by_cases atRest : ∀ c, (s.chan c).state = .idle ∨ (s.chan c).state = .faulted
  · obtain rfl := Host.Outcome.next.inj ((taken atRest).symm.trans h)
    have allowed : stateChangeAllowed (.leave op) s.station.state (some .leaving) := ⟨online, rfl⟩
    refine (Moved.settle (.of_entry ?_ rfl rfl allowed)).resulted _ _
    exact ⟨fun _ => .inr (.inr rfl), fun _ => rfl, fun silent => absurd running silent⟩
  · obtain rfl := Host.Outcome.next.inj ((busy atRest).symm.trans h)
    exact .of_kept kept (stationKept_answeredOnly ..)

theorem moved_clearIsolation {op : Byte} (kept : BusKept s) (running : s.phase = .running)
    (h : exec (.clearIsolation op) s = .next t) : Moved (.clearIsolation op) s t := by
  by_cases isolated : s.station.state = some .isolated
  swap
  · obtain rfl := Host.Outcome.next.inj ((exec_clearIsolation_wrongState running isolated).symm.trans h)
    exact .of_kept kept (stationKept_answeredOnly ..)
  obtain ⟨taken, busy⟩ := leaveAndClearIsolation.2 op s running isolated
  by_cases free : (∀ c, (s.chan c).state = .idle ∨ (s.chan c).state = .faulted) ∧ s.ring.waitList = [] ∧
    s.ring.inProgress = none
  · obtain rfl := Host.Outcome.next.inj ((taken free).symm.trans h)
    obtain ⟨transmit, leave⟩ := idle_of_off kept (by rw [isolated]; exact nofun) (by rw [isolated]; exact nofun)
      (by rw [isolated]; exact nofun)
    have allowed : stateChangeAllowed (.clearIsolation op) s.station.state (some .offline) := ⟨isolated, rfl⟩
    refine Moved.resulted (.of_entry ?_ rfl rfl allowed) _ _
    exact busKept_of_idle transmit leave fun silent => absurd running silent
  · obtain rfl := Host.Outcome.next.inj ((busy free).symm.trans h)
    exact .of_kept kept (stationKept_answeredOnly ..)

theorem moved_joinListenTimerExpiry (kept : BusKept s) (h : exec .joinListenTimerExpiry s = .next t) :
    Moved .joinListenTimerExpiry s t := by
  obtain rfl := Host.Outcome.next.inj h
  split
  case isTrue due =>
    obtain ⟨joining, -⟩ := Bool.and_eq_true_iff.1 due
    replace joining : s.station.state = some .joining := by simpa [State.inState] using joining
    have noLeave := leavePending_of_not_leaving kept (by rw [joining]; exact nofun)
    have allowed : stateChangeAllowed .joinListenTimerExpiry s.station.state (some .online) := ⟨joining, rfl⟩
    refine Moved.settle (.of_entry ⟨fun _ => .inr (.inl rfl), fun pending => ?_, fun silent => ?_⟩ rfl rfl allowed)
    · exact absurd (noLeave.symm.trans pending) nofun
    · exact absurd (running_of_state kept (by rw [joining]; exact nofun)) silent
  case isFalse => exact .of_kept kept ⟨rfl, id⟩

/-! ## The end of a transmission (R12, R34, R35) -/

/-- What the bus interface does when a message is out of the transmit buffer. -/
theorem stationKept_sent (b : BusInterface) (transmit : b.transmit = none)
    (queue : .leave ∈ b.controlQueue → s.leavePending = true) : StationKept s { s with bus := b } :=
  ⟨rfl, fun kept => ⟨fun sending => absurd transmit sending, fun pending => kept.leave (queue
    ((leavePending_iff.1 pending).resolve_right fun sending => by simp [transmit] at sending)), kept.silent⟩⟩

/-- R34: the message is out, and the station warm with its own number. -/
def released (s : State) : State :=
  { s with bus := { s.bus with
      transmit := none, clashCount := 0, slotRef := .warm s.ownStation, line := .idle, slotClock := 0 } }

theorem endTransmission_eq (s : State) (x : Transmission) :
    s.endTransmission x = if x.withdrawn then released s else (released s).reportSent x.item := rfl

theorem moved_transmissionEnd (kept : BusKept s) (h : exec .transmissionEnd s = .next t) : Moved .transmissionEnd s t := by
  obtain rfl := Host.Outcome.next.inj h
  split
  · exact .of_kept kept ⟨rfl, id⟩
  rename_i x sending
  have sent : StationKept s (released s) := stationKept_sent _ rfl fun leave => leavePending_iff.2 (.inl leave)
  refine Moved.settle ?_
  rw [endTransmission_eq]
  split
  · exact .of_kept kept sent
  by_cases isLeave : x.item = .control .leave
  · have leaving := kept.leave (leavePending_iff.2 (.inr (by rw [sending, Option.map_some, isLeave])))
    rw [isLeave, State.reportSent, endSession_eq]
    refine .of_entry (busKept_of_idle rfl List.not_mem_nil fun silent => ?_) rfl rfl ⟨leaving, rfl⟩
    exact absurd (running_of_state kept (by rw [leaving]; exact nofun)) silent
  · obtain ⟨same, keeps⟩ := (leaves_reportSent_of_ne (l := []) isLeave (released s)).station.resolve_left (by decide)
    exact .of_kept kept ⟨same.trans sent.1, keeps ∘ sent.2⟩

/-- R33: a message that returns to the control queue is coalesced there. -/
theorem mem_returnControl {q : List Control} {d x : Control} (h : x ∈ returnControl q d) : x ∈ q ∨ x = d := by
  have folded (l r : List Control) (h : x ∈ l.foldl coalesce r) : x ∈ l ∨ x ∈ r := by
    induction l generalizing r with
    | nil => exact .inr h
    | cons y l ih =>
      rcases ih _ h with later | first
      · exact .inl (List.mem_cons_of_mem y later)
      · exact (PeerBus.mem_coalesce first).elim .inr fun same => .inl (same ▸ List.mem_cons_self ..)
  rcases List.mem_append.1 h with merged | other
  · exact (folded _ _ merged).imp List.mem_of_mem_filter List.mem_singleton.1
  · exact .inl (List.mem_of_mem_filter other)

/-- R33, R143: the message goes back to its queue; a LEAVE was pending already. -/
theorem stationKept_returnToQueue {x : Transmission} (sending : s.bus.transmit = some x) {b : BusInterface}
    (transmit : b.transmit = none) (queue : b.controlQueue = s.bus.controlQueue) :
    StationKept s (State.returnToQueue { s with bus := b } x.item) := by
  have waits : .leave ∈ b.controlQueue → s.leavePending = true := fun leave => leavePending_iff.2 (.inl (queue ▸ leave))
  have sent := stationKept_sent b transmit waits
  rcases item : x.item with r | d | v
  · exact stationKept_sent _ transmit waits
  · refine stationKept_sent _ transmit fun leave => (mem_returnControl leave).elim waits fun same => ?_
    exact leavePending_iff.2 (.inr (by rw [sending, Option.map_some, item, same]))
  · simp only [State.returnToQueue]
    split
    · exact sent
    split
    · have left (e : Entry) (p : Station) : Leaves [] { s with bus := b }
          (((State.setEntry { s with bus := b } v (some e)).returnCredit p).retire v .aborted) := .of_blocks
      obtain ⟨same, keeps⟩ := (left _ _).station.resolve_left (by decide)
      exact ⟨same.trans sent.1, keeps ∘ sent.2⟩
    · have waiting (e : Entry) (requests : List Tag) : StationKept { s with bus := b }
          { State.setEntry { s with bus := b } v (some e) with bus := { b with requestQueue := requests } } :=
        stationKept_of_quiet {} rfl rfl
      obtain ⟨same, keeps⟩ := waiting _ _
      exact ⟨same.trans sent.1, keeps ∘ sent.2⟩

/-- R35: the station has abandoned its message. -/
def abandoned (s : State) : State :=
  { s with bus := { s.bus with
      transmit := none, clashCount := s.bus.clashCount + 1, slotRef := .cold, line := .abandoned, slotClock := 0 } }

theorem clash_eq (s : State) (x : Transmission) : s.clash x =
    if 2 ≤ s.bus.clashCount then (abandoned s).isolate
    else if x.withdrawn then abandoned s else (abandoned s).returnToQueue x.item := by
  have limit : Config.clashLimit ≤ s.bus.clashCount + 1 ↔ 2 ≤ s.bus.clashCount := by
    change 3 ≤ _ ↔ _
    omega
  simp only [State.clash, limit]
  rfl

theorem moved_transmissionClash (kept : BusKept s) (h : exec .transmissionClash s = .next t) :
    Moved .transmissionClash s t := by
  obtain rfl := Host.Outcome.next.inj h
  split
  · exact .of_kept kept ⟨rfl, id⟩
  rename_i x sending
  have cold : StationKept s (abandoned s) := stationKept_sent _ rfl fun leave => leavePending_iff.2 (.inl leave)
  have on := kept.transmits (by rw [sending]; exact nofun)
  refine Moved.settle ?_
  rw [clash_eq]
  split
  · obtain ⟨keptNow, allowed, cause⟩ := moved_isolate (c := .transmissionClash) (cold.2 kept) on
    exact ⟨keptNow, allowed, cause⟩
  split
  · exact .of_kept kept cold
  · exact .of_kept kept (stationKept_returnToQueue sending rfl rfl)

/-! ## Every command -/

theorem moved_exec (kept : BusKept s) (h : exec c s = .next t) : Moved c s t := by
  by_cases untouched : .station ∉ touched c
  · exact .of_kept kept ((leaves_exec c h).station.resolve_left untouched)
  by_cases silent : isHostWrite c = true ∧ s.phase ≠ .running
  · exact moved_of_silent kept silent.2 silent.1 h
  have running (write : isHostWrite c = true) : s.phase = .running :=
    Decidable.byContradiction fun off => silent ⟨write, off⟩
  cases c
  case powerOn => exact moved_powerOn h
  case resetPinAssert => exact moved_resetPinAssert h
  case configurationReadEnd => exact moved_configurationReadEnd kept h
  case softReset => exact moved_softReset (running rfl) h
  case join => exact moved_join kept (running rfl) h
  case leave => exact moved_leave kept (running rfl) h
  case clearIsolation => exact moved_clearIsolation kept (running rfl) h
  case joinListenTimerExpiry => exact moved_joinListenTimerExpiry kept h
  case transmissionEnd => exact moved_transmissionEnd kept h
  case transmissionClash => exact moved_transmissionClash kept h
  case ownNumberHeard =>
    obtain rfl := Host.Outcome.next.inj h
    split
    · rename_i listening
      split
      · exact .of_kept kept (stationKept_of_quiet {} rfl rfl)
      · exact moved_isolate kept (station_of_listening listening)
    · exact .of_kept kept ⟨rfl, id⟩
  case malformedMessage =>
    obtain rfl := Host.Outcome.next.inj h
    exact moved_hearFrom kept fun p u => .refl u
  case overheardMessage =>
    obtain rfl := Host.Outcome.next.inj h
    split
    · exact .of_kept kept ⟨rfl, id⟩
    · exact moved_hearFrom kept fun p u => leaves_presenceUpdate u p _ _ _
  case joinHeard =>
    obtain rfl := Host.Outcome.next.inj h
    exact moved_hearFrom kept fun p u => (leaves_presenceUpdate u p _ _ _).trans (leaves_queuePresence _)
  case presenceHeard =>
    obtain rfl := Host.Outcome.next.inj h
    exact moved_hearFrom kept fun p u => leaves_presenceUpdate u p _ _ _
  case leaveHeard =>
    obtain rfl := Host.Outcome.next.inj h
    exact moved_hearFrom kept fun p u => leaves_leaveUpdate u p _ _
  case askHeard =>
    obtain rfl := Host.Outcome.next.inj h
    exact moved_hearFrom kept fun p u => (leaves_presenceUpdate u p _ _ _).trans (leaves_takeAsk _ p _)
  case grantHeard =>
    obtain rfl := Host.Outcome.next.inj h
    exact moved_hearFrom kept fun p u =>
      (leaves_presenceUpdate u p _ _ _).trans (leaves_takeGrant _ p _ _)
  case writeHeard | readHeard =>
    obtain rfl := Host.Outcome.next.inj h
    exact moved_hearFrom kept fun p u =>
      (leaves_presenceUpdate u p _ _ _).trans (leaves_takeRequest (by decide) _ _)
  case ackHeard | dataHeard =>
    obtain rfl := Host.Outcome.next.inj h
    exact moved_hearFrom kept fun p u => leaves_deliverReply u p _ _ _ _ _ _ _
  all_goals exact absurd (of_decide_eq_false rfl) untouched

/-- Settles O58: each of the commands that may touch the station state, by its meaning; the others by the table. -/
theorem stationStateChangesAsTheTableSays : Obligations.StationStateChangesAsTheTableSays := by
  intro c s t kept h
  obtain ⟨keptNow, allowed, cause⟩ := moved_exec kept h
  exact ⟨keptNow, fun changed => ⟨allowed changed, cause changed⟩⟩

end Sys2Proof.Transitions
end

section
/-! SUPPORT. What every command does to local memory (R5, R158, R159). -/
namespace Sys2Proof.MemoryWrites

open Sys2Proof Sys2Proof.Machine Sys2Proof.Safety Scope StationStates

-- Each thread of the elaborator reserves 1 GB under the memory limit of the check.
set_option Elab.async false

variable {s t : State} {c : Instr}

/-! ## The end of an access -/

theorem finishAccess_written {cur : CurrentAccess} {e : AccessEnd} {report : State → State}
    (h : ∀ u, (report u).written = u.written) :
    (s.finishAccess cur e report).written = (s.applyWrite cur.access e).written := by
  have settled (u : State) : u.settle.written = u.written := (OwnSteps.ownLeaves_settle u).blocks.written
  unfold State.finishAccess
  rw [settled]
  change (if cur.dropped then s.applyWrite cur.access e else report (s.applyWrite cur.access e)).written = _
  split
  · rfl
  · exact h _

theorem written_of_leaves {l : List Part} (h : Leaves l s t) (memory : .memory ∉ l) : t.written = s.written :=
  h.memory.resolve_left memory

/-- The report of a store, of a record write and of an inbound access, each as its row makes it (R81, R141, R167). -/
theorem storeReport_written (u : State) (v : Tag) (e : AccessEnd) :
    (match u.entry v with
      | some x => if x.state = EntryState.storing then u.retire v (if endedOk e then .done else .failed .localBus) else u
      | none => u).written = u.written := by
  split
  · split
    · exact written_of_leaves (leaves_retire (l := []) u _ _) (by decide)
    · rfl
  · rfl

theorem endRecord_written (u : State) (d : Chan) (ok : Bool) : (u.endRecord d ok).written = u.written :=
  written_of_leaves (leaves_endRecord (l := [.producer]) (by decide) u d ok) (by decide)

theorem endSlotAccess_written (u : State) (i : SlotNo) (first : Nat) (e : AccessEnd) :
    (u.endSlotAccess i first e).written = u.written :=
  written_of_leaves (leaves_endSlotAccess (l := [.notices]) (by decide) u i first e) (by decide)

/-- When a write access has ended, its bytes are in local memory, its result dropped or not. -/
theorem endsWrite_written {cur : CurrentAccess} {e : AccessEnd} (current : s.port.current = some cur)
    (ends : endsWrite cur.access.requester e c) (h : exec c s = .next t) :
    t.written = (s.applyWrite cur.access e).written := by
  unfold endsWrite at ends
  split at ends
  case h_1 v store =>
    subst ends
    obtain rfl := Host.Outcome.next.inj h
    simp only [current, store]
    exact finishAccess_written fun u => storeReport_written u v e
  case h_2 d record =>
    subst ends
    obtain rfl := Host.Outcome.next.inj h
    simp only [current, record]
    exact finishAccess_written fun u => endRecord_written u d _
  case h_3 i write =>
    subst ends
    obtain rfl := Host.Outcome.next.inj h
    simp only [current, write]
    exact finishAccess_written fun u => endSlotAccess_written u i _ e
  all_goals exact ends.elim

/-! ## Which bytes an access has written (R5, R158, R159) -/

/-- What the model keeps of a write access that has ended so is what the statement asks, for each byte of the access. -/
theorem tookByte_eq_inMemoryAfter (e : AccessEnd) (x : Access) {j : Nat} (h : j < x.bytes.length) :
    tookByte x.addr x.bytes.length e j = inMemoryAfter e x j := by
  cases e with
  | ok data => rfl
  | error cycle low high data =>
    have failing : failingCycle x.addr x.bytes.length cycle =
        min cycle ((x.addr + x.bytes.length - 1) / 2 - x.addr / 2) := by
      rw [failingCycle, cycleCount, if_neg (by omega), Nat.add_sub_cancel, cycleOf]
    simp only [tookByte, inMemoryAfter, failing, cycleOf]
    generalize (x.addr + j) / 2 - x.addr / 2 = mine
    generalize min cycle _ = last
    rcases Nat.lt_trichotomy mine last with before | same | after
    · simp [before]
    · simp [same]
    · simp [Nat.lt_asymm after, Nat.ne_of_gt after]

theorem byteAfter_congr {m : Memory} {first a : Nat} {bytes : List Byte} {took took' : Nat → Bool}
    (h : ∀ j, j < bytes.length → took j = took' j) : byteAfter m first bytes took a = byteAfter m first bytes took' a :=
  if_congr (and_congr_right fun low => and_congr_right fun high => by rw [h _ (by omega)]) rfl rfl

theorem writeInProgress_eq {cur : CurrentAccess} (current : s.port.current = some cur) :
    writeInProgress s = if cur.access.requester.isWrite then some cur.access else none := by
  rw [writeInProgress, current]

/-- The end of the access in progress writes as `inMemoryAfter` says (R141, R159). -/
theorem writtenBy_applyWrite {cur : CurrentAccess} (current : s.port.current = some cur) (e : AccessEnd) :
    WrittenBy s (inMemoryAfter e) (s.applyWrite cur.access e).written := by
  have progress := writeInProgress_eq current
  unfold State.applyWrite
  split
  case isFalse read => exact writtenBy_of_none (progress.trans (if_neg read))
  case isTrue write =>
    have x := progress.trans (if_pos write)
    intro a
    have taken := writtenBy_of_writeWhere (took := fun x => tookByte x.addr x.bytes.length e) x a
    rw [x] at taken ⊢
    exact taken.trans (byteAfter_congr fun j h => tookByte_eq_inMemoryAfter e cur.access h)

/-- A byte that has changed is one of the write access in progress. -/
theorem changed_of_writtenBy {took : Access → Nat → Bool} {w : Memory} {a : Nat} (h : WrittenBy s took w)
    (changed : Memory.read w a ≠ Memory.read s.written a) : ∃ x, writeInProgress s = some x ∧ x.addr ≤ a ∧
      a < x.addr + x.bytes.length ∧ Memory.read w a = x.bytes[a - x.addr]? := by
  have now := h a
  split at now
  case h_2 => exact absurd now changed
  case h_1 x progress =>
    rw [byteAfter] at now
    split at now
    case isFalse => exact absurd now changed
    case isTrue inside => exact ⟨x, progress, inside.1, inside.2.1, now⟩

/-! ## Every command -/

/-- Local memory after a command: as before, or in its canonical form and written by the access in progress. -/
def Wrote (s : State) (w : Memory) : Prop := w = s.written ∨
  (Memory.wf s.written → Memory.wf w) ∧ ∃ took, WrittenBy s took w

theorem wrote_cut (s : State) (cut : List Bool) : Wrote s (s.applyCut cut).written :=
  .inr ⟨State.wf_applyCut cut, _, (applyCut_eq s cut).2⟩

theorem wrote_end {cur : CurrentAccess} (current : s.port.current = some cur) {e : AccessEnd} {report : State → State}
    (h : ∀ u, (report u).written = u.written) : Wrote s (s.finishAccess cur e report).written := by
  rw [finishAccess_written h]
  exact .inr ⟨State.wf_applyWrite _ e, _, writtenBy_applyWrite current e⟩

theorem wrote_exec (h : exec c s = .next t) : Wrote s t.written := by
  by_cases untouched : .memory ∉ touched c
  · exact .inl (written_of_leaves (leaves_exec c h) untouched)
  cases c
  case powerOn cut =>
    obtain rfl := Host.Outcome.next.inj h
    exact wrote_cut s cut
  case resetPinAssert cut =>
    obtain rfl := Host.Outcome.next.inj h
    exact wrote_cut s cut
  case storeEnd e =>
    obtain rfl := Host.Outcome.next.inj h
    split
    · exact .inl rfl
    rename_i cur current
    split
    case h_1 v _ => exact wrote_end current fun u => storeReport_written u v e
    all_goals exact .inl rfl
  case recordWriteEnd e =>
    obtain rfl := Host.Outcome.next.inj h
    split
    · exact .inl rfl
    rename_i cur current
    split
    case h_1 d _ => exact wrote_end current fun u => endRecord_written u d _
    all_goals exact .inl rfl
  case inboundAccessEnd e =>
    obtain rfl := Host.Outcome.next.inj h
    split
    · exact .inl rfl
    rename_i cur current
    split
    case h_1 i _ | h_2 i _ => exact wrote_end current fun u => endSlotAccess_written u i _ e
    all_goals exact .inl rfl
  all_goals exact absurd (of_decide_eq_false rfl) untouched

theorem wrote_step (h : step s = .next t) : Wrote s t.written := by
  cases queue : s.pending with
  | nil =>
    obtain rfl := Host.Outcome.next.inj ((CommandQueue.step_of_empty queue).symm.trans h)
    exact .inl rfl
  | cons c rest =>
    rw [CommandQueue.step_of_front queue] at h
    exact wrote_exec (s := { s with pending := rest }) h

/-- Settles O57: only a cut and the end of a write access reach local memory, and each writes its bytes alone. -/
theorem memoryChangesOnlyThroughThePort : Obligations.MemoryChangesOnlyThroughThePort := by
  refine ⟨fun s t h => ?_, fun c s t cur e current ends h => ?_⟩
  · rcases wrote_step h with same | ⟨wf, took, wrote⟩
    · rw [same]
      exact ⟨id, fun a changed => absurd rfl changed⟩
    · exact ⟨wf, fun a => changed_of_writtenBy wrote⟩
  · rw [endsWrite_written current ends h]
    exact writtenBy_applyWrite current e

end Sys2Proof.MemoryWrites
end

section
/-! SUPPORT. Line events, the two ends of a transmission, the queuing of the LEAVE, record issue and access grant, and the
invariants at reset. -/
namespace Sys2Proof.LineAndPort

open Sys2Proof Sys2Proof.Machine Sys2Proof.Safety StationStates Transitions

-- Each thread of the elaborator reserves 1 GB under the memory limit of the check.
set_option Elab.async false

variable {s t : State}

/-- Settles O60: at reset every table is empty. -/
theorem invariantsHoldAtReset : Obligations.InvariantsHoldAtReset := by
  have empty : PeerBus.BooksEmpty State.reset := PeerBus.booksEmpty_of_cleared rfl rfl rfl nofun
  have idle : State.reset.station.state = none ∧ State.reset.bus.transmit = none := ⟨rfl, rfl⟩
  have credit : CreditBooks State.reset := Credits.creditBooks_of_zero empty.grantCount
    (fun p => by simp [State.peer, State.reset, PeerEntry.cleared]) fun _ => idle
  have kept : Credits.BooksKept State.reset State.reset := Credits.booksKept_of_reset rfl rfl rfl rfl rfl fun _ => idle
  refine ⟨credit, (PeerBus.askKept_empty empty fun _ => idle).books, Sequences.sequencesDistinct_of_reset rfl,
    kept.ring ⟨rfl, rfl⟩, ?_, busKept_reset, Channels.tableBooks_of_reset rfl rfl rfl rfl rfl,
    PeerBus.queueBooks_empty empty, State.wf_reset_written⟩
  exact {
    served := fun p => by simp [State.peer, State.reset, PeerEntry.cleared]
    refusals := Nat.zero_le _
    notices := fun w n h => by simp [State.window, State.reset, Window.cleared] at h
    faults := fun c f h => by simp [State.chan, State.reset, Channel.cleared] at h }

/-! ## Line events (R22, R24, R25) -/

/-- A message with a source is heard by `hearFrom` (R22). -/
theorem exec_heard {c : Instr} {source : Byte} (h : heardSource c = some source) (s : State) :
    ∃ ok take, exec c s = .next (s.hearFrom source ok take) := by
  cases c
  case malformedMessage | joinHeard | presenceHeard | leaveHeard | askHeard | grantHeard | writeHeard | readHeard | ackHeard
      | dataHeard =>
    obtain rfl := Option.some.inj h
    exact ⟨_, _, rfl⟩
  all_goals cases h

/-- Settles O24: each event tests that the station listens and that it has not abandoned the activity. -/
theorem lineEventsMoveTheSlotReference : Obligations.LineEventsMoveTheSlotReference := by
  refine ⟨fun s => ⟨fun listening => ⟨fun heard => ?_, congrArg _ (if_pos listening), fun source high other => ?_⟩,
    fun source p hearing => congrArg _ (State.hearFrom_malformed hearing _), fun silent => ⟨?_, ?_, fun source =>
      ⟨?_, congrArg _ (State.hearFrom_silent silent _ _)⟩⟩⟩, fun s listening heard => ⟨?_, fun c source h own => ?_⟩,
    fun s listening deaf => ⟨?_, ?_, fun c source h => ?_, fun dest source kind inc other => ?_⟩⟩
  · simp [exec, execActivityBegin, listening, State.deaf, heard]
  · simp only [exec, execSourceNOrHigherHeard, listening, decide_eq_true high, decide_eq_true other]
    rfl
  · simp [exec, execActivityBegin, silent]
  · simp [exec, execBadCheckActivity, silent]
  · simp [exec, execSourceNOrHigherHeard, silent]
  · simp [exec, execOwnNumberHeard, listening, State.deaf, heard]
  · obtain ⟨ok, take, heardNow⟩ := exec_heard h s
    rw [heardNow, State.hearFrom_own listening heard own]
  · simp [exec, execActivityBegin, State.deaf, deaf]
  · simp only [exec, execOwnNumberHeard, listening, State.deaf, decide_eq_true deaf]
    rfl
  · obtain ⟨ok, take, heardNow⟩ := exec_heard h s
    rw [heardNow, State.hearFrom_deaf listening deaf]
  · simp only [exec, execOverheardMessage, if_neg other]
    rw [State.hearFrom_deaf listening deaf]

/-! ## The end of a transmission (R34) -/

theorem setEntry_free {v : Tag} (free : s.entry v = none) : s.setEntry v none = s := by
  have same : s.entries.set v none = s.entries := by
    rw [← free]
    exact Vector.set_getElem_self _
  rw [State.setEntry, same]

theorem exec_transmissionEnd {x : Transmission} (sending : s.bus.transmit = some x) :
    exec .transmissionEnd s = .next (s.endTransmission x).settle := by
  simp only [exec, execTransmissionEnd, sending]

/-- Settles O40: the report to each owner, unless the message was withdrawn. -/
theorem transmissionEndIsReported : Obligations.TransmissionEndIsReported := by
  intro s x sending u ends
  have withdrawn (h : x.withdrawn = true) : s.endTransmission x = u := if_pos h
  have reported (h : x.withdrawn = false) : s.endTransmission x = u.reportSent x.item := if_neg (by rw [h]; exact nofun)
  have ended {v : State} (h : s.endTransmission x = v) : ends v := h ▸ exec_transmissionEnd sending
  refine ⟨fun h => ended (withdrawn h), fun h => ⟨fun r i item owner => ?_, fun r item owner => ?_, fun c item other => ?_,
    fun item => ?_, fun v e item entry => ?_, fun v item free => ?_⟩⟩
  all_goals refine ended ((reported h).trans ?_); rw [item]
  · simp only [State.reportSent, owner]
    rfl
  · simp only [State.reportSent, owner]
  · cases c with
    | leave => exact absurd rfl other
    | join | presence | ask _ _ | grant _ _ _ => rfl
  · exact endSession_eq u
  · simp only [State.reportSent, State.modEntry]
    rw [show u.entry v = some e from entry]
    rfl
  · simp only [State.reportSent, State.modEntry]
    rw [show u.entry v = none from free]
    exact setEntry_free free

/-! ## A clash (R33, R35) -/

theorem exec_transmissionClash {x : Transmission} (sending : s.bus.transmit = some x) :
    exec .transmissionClash s = .next (s.clash x).settle := by
  simp only [exec, execTransmissionClash, sending]

/-- R33: nothing of its kind waits. -/
theorem returnControl_alone {q : List Control} {c : Control} (h : ∀ y ∈ q, c.sameGroup y = false) :
    returnControl q c = c :: q := by
  have none : q.filter c.sameGroup = [] := List.filter_eq_nil_iff.2 fun y mem => by rw [h y mem]; exact nofun
  have all : (q.filter fun x => !c.sameGroup x) = q := List.filter_eq_self.2 fun y mem => by rw [h y mem]; rfl
  rw [returnControl, none, all]
  rfl

/-- R33: one of its kind waits, and they are coalesced at the head. -/
theorem returnControl_met {before after : List Control} {c y : Control} (met : c.sameGroup y = true)
    (h : ∀ z ∈ before ++ after, c.sameGroup z = false) :
    returnControl (before ++ y :: after) c = coalesce [c] y ++ (before ++ after) := by
  have others {l : List Control} (sub : l ⊆ before ++ after) :
      l.filter c.sameGroup = [] ∧ (l.filter fun x => !c.sameGroup x) = l :=
    ⟨List.filter_eq_nil_iff.2 fun z mem => by rw [h z (sub mem)]; exact nofun,
      List.filter_eq_self.2 fun z mem => by rw [h z (sub mem)]; rfl⟩
  obtain ⟨noneBefore, allBefore⟩ := others (List.subset_append_left before after)
  obtain ⟨noneAfter, allAfter⟩ := others (List.subset_append_right before after)
  simp [returnControl, met, noneBefore, allBefore, noneAfter, allAfter]

/-- R31: two announcements become one, a LEAVE if either is. -/
theorem coalesce_announcements {c y : Control} (hc : c = .presence ∨ c = .join) (hy : y = .presence ∨ y = .leave) :
    coalesce [c] y = [if y = .leave then .leave else c] := by
  rcases hc with rfl | rfl <;> rcases hy with rfl | rfl <;> rfl

/-- Settles O41: the third clash in a row, a withdrawn message, and the return to each queue. -/
theorem clashReturnsTheMessage : Obligations.ClashReturnsTheMessage := by
  intro s x sending u clashes queue control
  have eq := clash_eq s x
  have clashed {v : State} (h : s.clash x = v) : clashes v := h ▸ exec_transmissionClash sending
  have few (h : s.bus.clashCount < 2) : ¬ 2 ≤ s.bus.clashCount := by omega
  refine ⟨fun third => clashed (eq.trans (if_pos third)), fun less withdrawn => clashed ?_, fun less kept => ?_⟩
  · rw [eq, if_neg (few less), if_pos withdrawn]
    rfl
  have returned : s.clash x = u.returnToQueue x.item := by
    rw [eq, if_neg (few less), if_neg (by rw [kept]; exact nofun)]
    rfl
  have controlled {c : Control} {q : List Control} (item : x.item = .control c) (h : returnControl queue c = q) :
      clashes (control q) := by
    refine clashed (returned.trans ?_)
    rw [item, ← h]
    rfl
  refine ⟨fun r item => ?_, fun c item alone => controlled item (returnControl_alone alone),
    fun p n m before after item waiting others => controlled item ?_,
    fun before after c y hc hy item waiting others => controlled item ?_, fun v e item entry => ?_⟩
  · refine clashed (returned.trans ?_)
    rw [item]
    rfl
  · rw [waiting, returnControl_met (by simp [Control.sameGroup, Control.isAskTo]) others]
    simp [coalesce, Control.isAskTo]
  · have group : c.sameGroup = Control.isAnnouncement := by rcases hc with rfl | rfl <;> rfl
    rw [waiting, returnControl_met (by rw [group]; rcases hy with rfl | rfl <;> rfl) (by rw [group]; exact others),
      coalesce_announcements hc hy]
    rfl
  · have request : s.clash x = u.returnToQueue (.request v) := item ▸ returned
    simp only [State.returnToQueue, show u.entry v = some e from entry] at request
    exact ⟨fun live => clashed (request.trans (if_neg (by rw [live]; exact nofun))),
      fun aborted => clashed (request.trans (if_pos aborted))⟩

/-! ## The LEAVE, record issue and access grant (R11, R161, R166) -/

theorem exec_leaveQueued (leaving : s.station.state = some .leaving) (slots : ∀ i, s.slot i = none)
    (replies : s.bus.replyQueue = []) (pending : s.leavePending = false) :
    exec .leaveQueued s = .next (s.queueControl .leave).settle := by
  have free : s.occupied = 0 := by
    rw [State.occupied, List.countP_eq_zero]
    intro i _
    simp [slots i]
  have due : (s.inState .leaving && s.occupied = 0 && s.bus.replyQueue.isEmpty && !s.leavePending) = true := by
    simp [State.inState, leaving, free, replies, pending]
  simp only [exec, execLeaveQueued, State.leaveQueued, if_pos due]
  rfl

/-- R31: a LEAVE takes the place of the announcement that waits. -/
theorem coalesce_leave_met {before after : List Control} {y : Control} (met : y.isAnnouncement = true)
    (h : ∀ z ∈ before ++ after, z.isAnnouncement = false) :
    coalesce (before ++ y :: after) .leave = before ++ .leave :: after := by
  have same {l : List Control} (sub : l ⊆ before ++ after) :
      (l.map fun c => if c.isAnnouncement then Control.leave else c) = l :=
    (List.map_congr_left fun c mem => by rw [h c (sub mem)]; rfl).trans (List.map_id' l)
  have any : (before ++ y :: after).any Control.isAnnouncement = true := by simp [met]
  simp only [coalesce, any, if_true, List.map_append, List.map_cons, met, same (List.subset_append_left before after),
    same (List.subset_append_right before after)]

theorem coalesce_leave_alone {q : List Control} (h : ∀ y ∈ q, y.isAnnouncement = false) :
    coalesce q .leave = q ++ [.leave] :=
  if_neg fun any => by
    obtain ⟨y, mem, is⟩ := List.any_eq_true.1 any
    rw [h y mem] at is
    cases is

theorem hasRoom_iff {r : RingUnit} :
    r.hasRoom = true ↔ ∃ g, r.config = some g ∧ (r.producer - r.consumer).toNat < g.size := by
  unfold RingUnit.hasRoom RingUnit.fill
  cases r.config <;> simp

/-- R166: no record is issued without a channel that waits, while another is written, or without room. -/
theorem recordWriteIssue_none (h : s.ring.waitList = [] ∨ s.ring.inProgress ≠ none ∨ ¬ s.ring.hasRoom = true) :
    s.recordWriteIssue = none := by
  unfold State.recordWriteIssue
  split
  · rename_i waits idle
    rw [if_neg ((h.resolve_left (by rw [waits]; exact nofun)).resolve_left (by simp [idle]))]
  · rfl

theorem accessGrant_outbound {a : Access} {rest : List Access} (idle : s.port.current = none)
    (waits : s.port.outQueue = a :: rest) (turn : s.port.inQueue = [] ∨ s.port.lastSide = .inbound) :
    s.accessGrant = some (s.grantOutbound a rest) := by
  have free : ¬ s.port.current.isSome = true := by rw [idle]; exact nofun
  rw [State.accessGrant, if_neg free, waits]
  cases queue : s.port.inQueue with
  | nil => rfl
  | cons b later => rw [turn.resolve_left (by rw [queue]; exact nofun)]

theorem accessGrant_inbound {b : Access} {rest : List Access} (idle : s.port.current = none)
    (waits : s.port.inQueue = b :: rest) (turn : s.port.outQueue = [] ∨ s.port.lastSide = .outbound) :
    s.accessGrant = some (s.grantInbound b rest) := by
  have free : ¬ s.port.current.isSome = true := by rw [idle]; exact nofun
  rw [State.accessGrant, if_neg free, waits]
  cases queue : s.port.outQueue with
  | nil => rfl
  | cons a later => rw [turn.resolve_left (by rw [queue]; exact nofun)]

/-- R80, R161: the slot whose access is granted enters ACCESSING. -/
theorem startAccess_inbound {b : Access} {i : SlotNo} {x : Slot}
    (requester : b.requester = .inboundWrite i ∨ b.requester = .inboundRead i) (occupied : s.slot i = some x) :
    s.startAccess b = s.setSlot i (some { x with state := .accessing }) := by
  have entered : s.modSlot i (fun x => { x with state := .accessing }) =
      s.setSlot i (some { x with state := .accessing }) := by
    rw [State.modSlot, occupied]
    rfl
  unfold State.startAccess
  rcases requester with write | read
  · rw [write]; exact entered
  · rw [read]; exact entered

/-- Settles O50: each row's step is due as its conditions say. -/
theorem portRingAndDrainSteps : Obligations.PortRingAndDrainSteps := by
  refine ⟨?_, ?_, ?_, ?_⟩
  · intro s leaving slots replies pending queued
    have row := exec_leaveQueued leaving slots replies pending
    have joined {q : List Control} (h : coalesce s.bus.controlQueue .leave = q) : queued q := by
      rw [State.queueControl, h] at row
      exact row
    refine ⟨fun alone => joined (coalesce_leave_alone alone), fun before after y waiting announcement others => joined ?_⟩
    rw [waiting]
    exact coalesce_leave_met (by rcases announcement with rfl | rfl <;> rfl) others
  · intro s c rest g r waits idle config room record issued
    have due : s.recordWriteIssue = some issued := by
      have hasRoom := hasRoom_iff.2 ⟨g, config, room⟩
      have position : s.ring.position = g.base + 16 * (s.ring.producer.toNat % g.size) := by
        rw [RingUnit.position, config]
      simp only [State.recordWriteIssue, waits, idle, if_pos hasRoom, record, position]
      rfl
    refine ⟨by rw [State.testRecordWrite, due]; rfl, ?_⟩
    simp only [exec, execRecordWriteIssue, State.ownRow, due]
    rfl
  · intro s notDue
    have none : s.recordWriteIssue = none := recordWriteIssue_none <| notDue.imp_right <| Or.imp_right fun full room => by
      obtain ⟨g, config, less⟩ := hasRoom_iff.1 room
      rcases full with absent | ⟨g', config', more⟩
      · rw [absent] at config
        cases config
      · obtain rfl := Option.some.inj (config.symm.trans config')
        omega
    refine ⟨by rw [State.testRecordWrite, none]; rfl, ?_⟩
    simp only [exec, execRecordWriteIssue, State.ownRow, none]
    rfl
  · intro s idle
    have row {t : State} (due : s.accessGrant = some t) : exec .accessGrant s = .next t.settle := by
      simp only [exec, execAccessGrant, State.ownRow, due]
      rfl
    refine ⟨fun a rest waits turn => row ?_, fun b rest i x waits turn requester occupied => row ?_⟩
    · exact accessGrant_outbound idle waits turn
    · rw [accessGrant_inbound idle waits turn]
      exact congrArg some (startAccess_inbound requester occupied)

end Sys2Proof.LineAndPort
end

section
/-! SUPPORT. What isolation makes of the channels before an entry retires (R126), what the end of channels makes of the ring
wait list (R166), and that the part's own steps change nothing more of either. -/
namespace Sys2Proof.IsolationOrder

open Sys2Proof Sys2Proof.Machine Sys2Proof.Safety Isolation Channels

-- Each thread of the elaborator reserves 1 GB under the memory limit of the check.
set_option Elab.async false

variable {s t u v : State} {c : Chan}

/-! ## The halted channels (R126) -/

/-- A channel once isolation has come to it: its fault and flag, the end of its WAIT and of its chaining. -/
def haltedChan (ch : Channel) : Channel :=
  match ch.state with
  | .idle | .faulted => ch
  | .fetching | .running | .draining => ch.isolateBusy
  | .waiting => { Channel.channelFault ch .isolated none with waitTimer := .stopped }
  | .completing => { ch with chainCancelled := true }

section

variable {ch : Channel}

theorem haltedChan_of_atRest (h : ch.state = .idle ∨ ch.state = .faulted) : haltedChan ch = ch := by
  unfold haltedChan
  rcases h with state | state <;> rw [state]

theorem haltedChan_of_busy (h : ch.state = .fetching ∨ ch.state = .running ∨ ch.state = .draining) :
    haltedChan ch = ch.isolateBusy := by
  unfold haltedChan
  rcases h with state | state | state <;> rw [state]

theorem haltedChan_of_waiting (h : ch.state = .waiting) :
    haltedChan ch = { Channel.channelFault ch .isolated none with waitTimer := .stopped } := by
  unfold haltedChan
  rw [h]

theorem haltedChan_of_completing (h : ch.state = .completing) : haltedChan ch = { ch with chainCancelled := true } := by
  unfold haltedChan
  rw [h]

end

theorem isolateChannel_eq (s : State) (c : Chan) : ∃ w, s.isolateChannel c =
    { s with channels := s.channels.set c (haltedChan (s.chan c)), marks := { s.marks with waits := w } } := by
  have same : s.channels.set c (s.chan c) = s.channels := Vector.set_getElem_self _
  unfold State.isolateChannel
  dsimp only
  split
  case h_1 state => exact ⟨s.marks.waits, by rw [haltedChan_of_atRest (.inl state), same]⟩
  case h_2 state => exact ⟨s.marks.waits, by rw [haltedChan_of_atRest (.inr state), same]⟩
  case h_6 state => exact ⟨_, by rw [haltedChan_of_waiting state]; rfl⟩
  case h_7 state => exact ⟨s.marks.waits, by rw [haltedChan_of_completing state]; rfl⟩
  all_goals
    rename_i state
    exact ⟨s.marks.waits, by rw [haltedChan_of_busy (by simp [state])]; rfl⟩

theorem isolateChannels_eq {l : List Chan} (once : l.Nodup) (s : State) : ∃ x w,
    l.foldl State.isolateChannel s = { s with channels := x, marks := { s.marks with waits := w } } ∧
      ∀ c, (l.foldl State.isolateChannel s).chan c = if c ∈ l then haltedChan (s.chan c) else s.chan c := by
  induction l generalizing s with
  | nil => exact ⟨s.channels, s.marks.waits, rfl, fun c => by simp⟩
  | cons d l ih =>
    obtain ⟨notMem, once⟩ := List.nodup_cons.1 once
    obtain ⟨w, first⟩ := isolateChannel_eq s d
    obtain ⟨x, w', rest, chan⟩ := ih once (s.isolateChannel d)
    have own (c : Chan) : (s.isolateChannel d).chan c = if d = c then haltedChan (s.chan d) else s.chan c := by
      rw [first]
      exact State.chan_setChan s d c _
    refine ⟨x, w', ?_, fun c => ?_⟩
    · rw [List.foldl_cons, rest, first]
    · rw [List.foldl_cons, chan, own]
      by_cases same : d = c
      · subst same; simp [notMem]
      · simp [same, Ne.symm same]

/-- The halted state: only channels and wait set have changed since the station was cut off. -/
theorem halted_eq (s : State) : ∃ x w,
    halted s = { cutOff s with channels := x, marks := { s.marks with waits := w } } ∧
      ∀ c, (halted s).chan c = haltedChan (s.chan c) := by
  obtain ⟨x, w, frame, chan⟩ := isolateChannels_eq (l := allChans) (by decide) (cutOff s)
  exact ⟨x, w, frame, fun c => (chan c).trans (if_pos (Descriptors.mem_allChans c))⟩

theorem isolating_halted (books : TableBooks s) : Isolating (halted s) := by
  have cut : SameTable s { cutOff s with readyList := s.readyList } := .of_blocks
  obtain ⟨kept, all⟩ := halted_isolateChannels (s := cutOff s) allChans (tableBooks_unready (cut.kept books)) rfl
  exact ⟨kept, fun c => all c (.inl (Descriptors.mem_allChans c))⟩

/-! ## The end of a channel (R118, R126, R166) -/

/-- The channels of the ring unit in the order in which their records are written. -/
def ringQueue (s : State) : List Chan := s.ring.inProgress.toList ++ s.ring.waitList

/-- A channel in COMPLETING with FAULTED and its record. -/
def endedChan (c : Chan) (ch : Channel) : Channel :=
  { ch with
    state := .completing, pending := some .faulted, recordDue := true, record := some (ch.fixRecord c .faulted) }

/-- A record write in progress goes on; else one may begin, with the head of the queue. -/
structure RingGoesOn (s t : State) : Prop where
  queue : ringQueue t = ringQueue s
  writing : s.ring.inProgress ≠ none → t.ring.inProgress = s.ring.inProgress

theorem RingGoesOn.refl (s : State) : RingGoesOn s s := ⟨rfl, fun _ => rfl⟩

theorem RingGoesOn.trans (h : RingGoesOn s t) (h' : RingGoesOn t u) : RingGoesOn s u :=
  ⟨h'.queue.trans h.queue, fun busy => (h'.writing (by rw [h.writing busy]; exact busy)).trans (h.writing busy)⟩

theorem ringGoesOn_recordWriteIssue (h : s.recordWriteIssue = some t) : RingGoesOn s t := by
  obtain ⟨c, rest, r, waits, idle, -, -, rfl⟩ := State.recordWriteIssue_spec h
  exact ⟨by simp [ringQueue, waits, idle], fun busy => absurd idle busy⟩

theorem ringGoesOn_testRecordWrite (s : State) : RingGoesOn s s.testRecordWrite := by
  unfold State.testRecordWrite
  cases h : s.recordWriteIssue with
  | none => exact .refl s
  | some t => exact ringGoesOn_recordWriteIssue h

/-- From `u` to `v` the channels of `l`, which isolation ends, end in this order. -/
structure EndedBy (u v : State) (l : List Chan) : Prop where
  isolating : Isolating u → Isolating v
  own : v.marks.own = u.marks.own
  queue : ringQueue v = ringQueue u ++ l
  writing : u.ring.inProgress ≠ none → v.ring.inProgress = u.ring.inProgress
  entry : ∀ t, v.entry t = u.entry t
  chan : ∀ c, v.chan c = if c ∈ l then endedChan c (u.chan c) else u.chan c

theorem EndedBy.refl (u : State) : EndedBy u u [] :=
  ⟨id, rfl, (List.append_nil _).symm, fun _ => rfl, fun _ => rfl, fun _ => rfl⟩

theorem EndedBy.trans {l l' : List Chan} (h : EndedBy s t l) (h' : EndedBy t u l') (apart : ∀ c ∈ l', c ∉ l) :
    EndedBy s u (l ++ l') where
  isolating := h'.isolating ∘ h.isolating
  own := h'.own.trans h.own
  queue := by rw [h'.queue, h.queue, List.append_assoc]
  writing busy := (h'.writing (by rw [h.writing busy]; exact busy)).trans (h.writing busy)
  entry t := (h'.entry t).trans (h.entry t)
  chan c := by
    rw [h'.chan, h.chan]
    by_cases later : c ∈ l'
    · simp [later, apart c later]
    · simp [later]

theorem endedBy_complete (ends : (s.chan c).endsIsolated = true) : EndedBy s (s.complete c .faulted) [c] := by
  have done : s.complete c .faulted = s.endIsolated c := (if_pos ends).symm
  have isolating (h : Isolating s) : Isolating (s.complete c .faulted) := done ▸ h.endIsolated c
  rw [Descriptors.complete_due rfl] at isolating ⊢
  have ring := ringGoesOn_testRecordWrite { s.setChan c (endedChan c (s.chan c)) with
    ring := { s.ring with waitList := s.ring.waitList ++ [c] } }
  refine ⟨isolating, by rw [State.testRecordWrite_marks]; rfl, ring.queue.trans (List.append_assoc ..).symm, ring.writing,
    fun t => by rw [State.testRecordWrite_entry]; rfl, fun d => ?_⟩
  · rw [State.testRecordWrite_chan]
    refine (State.chan_setChan s c d _).trans ?_
    by_cases same : c = d
    · subst same; simp [endedChan]
    · simp [same, Ne.symm same]

theorem endedBy_endIsolated (s : State) (c : Chan) :
    EndedBy s (s.endIsolated c) (if (s.chan c).endsIsolated then [c] else []) := by
  unfold State.endIsolated
  by_cases ends : (s.chan c).endsIsolated = true
  · rw [if_pos ends, if_pos ends]
    exact endedBy_complete ends
  · rw [if_neg ends, if_neg ends]
    exact .refl s

theorem mem_ended {d : Chan} {ends : Bool} (h : c ∈ if ends then [d] else []) : c = d := by
  split at h
  · exact List.mem_singleton.1 h
  · cases h

/-- R166: those of `l` that isolation ends do so in the order of `l`. -/
theorem endedBy_foldl {l : List Chan} (once : l.Nodup) (s : State) :
    EndedBy s (l.foldl State.endIsolated s) (l.filter fun c => (s.chan c).endsIsolated) := by
  induction l generalizing s with
  | nil => exact .refl s
  | cons d l ih =>
    obtain ⟨notMem, once⟩ := List.nodup_cons.1 once
    have first := endedBy_endIsolated s d
    have others : ∀ c ∈ l, ((s.endIsolated d).chan c).endsIsolated = (s.chan c).endsIsolated := fun c mem => by
      have apart : c ∉ if (s.chan d).endsIsolated then [d] else [] := fun same => notMem (mem_ended same ▸ mem)
      rw [first.chan, if_neg apart]
    have rest := ih once (s.endIsolated d)
    rw [List.filter_congr others] at rest
    have both := first.trans rest fun c mem same => notMem (mem_ended same ▸ List.mem_of_mem_filter mem)
    rw [List.filter_cons]
    split
    · rename_i ends
      rwa [if_pos ends] at both
    · rename_i ends
      rwa [if_neg ends] at both

/-! ## The part's own steps after isolation -/

/-- Off the bus, with every channel halted and none that isolation still has to end, the own steps only write records and
grant accesses. -/
structure Settled (s t : State) : Prop where
  ring : RingGoesOn s t
  channels : t.channels = s.channels
  marks : t.marks = s.marks
  off : Off t

theorem settled_ownStep (halted : ∀ c, Halted s c) (ended : ∀ c, ¬ (s.chan c).endsIsolated = true) (off : Off s)
    (h : s.ownStep = some t) : Settled s t := by
  have stays := (ownStep_off off h).1
  rcases ownStep_cases_off off h with h | ⟨c, h⟩ | h | h
  · obtain ⟨reports, -⟩ := State.judgeWaits_spec h
    refine absurd (List.filterMap_eq_nil_iff.2 fun c _ => ?_) reports
    rw [State.waitReport, (halted c).1]
  · obtain ⟨ends, -⟩ := State.descriptorEnd_spec h
    simp only [Channel.ends, Bool.and_eq_true, Bool.or_eq_true, decide_eq_true_eq] at ends
    obtain ⟨⟨running | draining, none⟩, -⟩ := ends
    · exact absurd running (halted c).2
    · exact absurd (by simp [Channel.endsIsolated, draining, none]) (ended c)
  · have ring := ringGoesOn_recordWriteIssue h
    obtain ⟨c, rest, r, -, -, -, -, rfl⟩ := State.recordWriteIssue_spec h
    exact ⟨ring, rfl, rfl, stays.off off⟩
  · have kept := stays.off off
    obtain ⟨-, ⟨a, rest, -, -, rfl⟩ | ⟨b, rest, queued, -⟩⟩ := State.accessGrant_spec h
    · exact ⟨⟨rfl, fun _ => rfl⟩, rfl, rfl, kept⟩
    · rw [off.inQueue] at queued
      cases queued

theorem settled_settle (halted : ∀ c, Halted s c) (ended : ∀ c, ¬ (s.chan c).endsIsolated = true) (off : Off s) :
    Settled s s.settle := by
  refine State.settle_induction (P := Settled s) (fun t u kept h => ?_) ⟨.refl s, rfl, rfl, off⟩
  have chan (c : Chan) : t.chan c = s.chan c := by rw [State.chan, State.chan, kept.channels]
  have waitOf (c : Chan) : t.waitOf c = s.waitOf c := by rw [State.waitOf, State.waitOf, kept.marks]
  have next := settled_ownStep (fun c => ⟨(waitOf c).trans (halted c).1, by rw [chan]; exact (halted c).2⟩)
    (fun c => by rw [chan]; exact ended c) kept.off h
  exact ⟨kept.ring.trans next.ring, next.channels.trans kept.channels, next.marks.trans kept.marks, next.off⟩

/-! ## What a retirement makes of a halted channel (R104, R105, R147) -/

/-- `y` is the halted channel `x` after some of its pieces have retired: its state, its flag and its fault stay. -/
structure Emptying (x y : Channel) : Prop where
  state : y.state = x.state
  flag : y.flag = x.flag
  fault : y.fault.map (fun f => (f.code, f.piece)) = x.fault.map fun f => (f.code, f.piece)
  owned : y.owned ≤ x.owned
  whole : x.owned = 0 → y = x

theorem Emptying.refl (x : Channel) : Emptying x x := ⟨rfl, rfl, rfl, Nat.le_refl _, fun _ => rfl⟩

variable {x y : Channel}

/-- R105, R114: a piece that fails in a channel that stops already is counted, and its fault is a further one. -/
theorem Emptying.applyOutcome (h : Emptying x y) (stopping : y.flag ≠ .none) (faulted : y.fault.isSome = true)
    (owns : y.owned ≠ 0) (o : PieceOutcome) (piece : Nat) (p : Station) :
    Emptying x (y.applyOutcome o piece p) ∧ (y.applyOutcome o piece p).owned = y.owned - 1 := by
  have less : y.owned - 1 ≤ x.owned := (Nat.sub_le ..).trans h.owned
  have whole {z : Channel} : x.owned = 0 → z = x := fun none => absurd (Nat.le_zero.1 (none ▸ h.owned)) owns
  cases o with
  | done => exact ⟨⟨h.state, h.flag, h.fault, less, whole⟩, rfl⟩
  | aborted => exact ⟨⟨h.state, h.flag, h.fault, less, whole⟩, rfl⟩
  | failed code =>
    obtain ⟨f, fault⟩ := Option.isSome_iff_exists.1 faulted
    have counted : y.applyOutcome (.failed code) piece p = { y with
        owned := y.owned - 1, failed := y.failed + 1, fault := some f.more } := by
      rw [applyOutcome_failed]
      simp [stopping, pieceRecord, fault]
    rw [counted]
    refine ⟨⟨h.state, h.flag, ?_, less, whole⟩, rfl⟩
    rw [← h.fault, fault]
    rfl

end Sys2Proof.IsolationOrder
end

section
/-! SUPPORT. The order in which the channels that isolation ends join the ring wait list (R147, R166): an invariant over the
tags, in whose order the entries retire. -/
namespace Sys2Proof.IsolationOrder

open Sys2Proof Sys2Proof.Machine Sys2Proof.Safety Isolation Channels

-- Each thread of the elaborator reserves 1 GB under the memory limit of the check.
set_option Elab.async false

variable {s h u w : State} {c : Chan} {k : Nat} {ended batch all : List Chan}

/-! ## The last tag of a channel -/

theorem foldl_last_le {P : Tag → Prop} [DecidablePred P] {l : List Tag} (rising : l.Pairwise (· < ·)) (n : Nat) :
    l.foldl (fun n t => if P t then t.val + 1 else n) 0 ≤ n ↔ ∀ t ∈ l, P t → t.val < n := by
  induction l using List.reverseRecOn with
  | nil => simp
  | append_singleton l a ih =>
    obtain ⟨rising, -, before⟩ := List.pairwise_append.1 rising
    rw [List.foldl_append, List.foldl_cons, List.foldl_nil]
    by_cases holds : P a
    · rw [if_pos holds]
      refine ⟨fun less t mem _ => ?_, fun below => below a (by simp) holds⟩
      rcases List.mem_append.1 mem with earlier | last
      · have := Fin.lt_def.1 (before t earlier a (List.mem_singleton_self a))
        omega
      · rw [List.mem_singleton.1 last]
        exact less
    · rw [if_neg holds, ih rising]
      refine ⟨fun below t mem now => ?_, fun below t mem => below t (List.mem_append_left _ mem)⟩
      rcases List.mem_append.1 mem with earlier | last
      · exact below t earlier now
      · exact absurd (List.mem_singleton.1 last ▸ now) holds

theorem lastTag_le_iff (s : State) (c : Chan) (n : Nat) :
    lastTag s c ≤ n ↔ ∀ v, (s.entry v).map (·.chan) = some c → v.val < n := by
  rw [lastTag, foldl_last_le (by decide)]
  exact ⟨fun below v => below v (PeerBus.mem_allTags v), fun below v _ => below v⟩

/-! ## The order of the wait list (log 16) -/

theorem ringOrder_iff_lt {a b : Chan} (ha : lastTag s a = 0) (hb : lastTag s b = 0) : ringOrder s ended a b ↔ a < b := by
  simp only [ringOrder, ha, hb]

theorem ringOrder_iff_below {a b : Chan} (ha : lastTag s a = 0) (hb : lastTag s b ≠ 0) :
    ringOrder s ended a b ↔ ∃ d ∈ ended, lastTag s d ≠ 0 ∧ lastTag s d ≤ lastTag s b ∧ a < d := by
  obtain ⟨n, hn⟩ := Nat.exists_eq_succ_of_ne_zero hb
  simp only [ringOrder, ha, hn]

theorem ringOrder_iff_not_below {a b : Chan} (ha : lastTag s a ≠ 0) (hb : lastTag s b = 0) :
    ringOrder s ended a b ↔ ¬ ∃ d ∈ ended, lastTag s d ≠ 0 ∧ lastTag s d ≤ lastTag s a ∧ b < d := by
  obtain ⟨n, hn⟩ := Nat.exists_eq_succ_of_ne_zero ha
  simp only [ringOrder, hb, hn]

theorem ringOrder_iff_last {a b : Chan} (ha : lastTag s a ≠ 0) (hb : lastTag s b ≠ 0) :
    ringOrder s ended a b ↔ lastTag s a < lastTag s b := by
  obtain ⟨m, hm⟩ := Nat.exists_eq_succ_of_ne_zero ha
  obtain ⟨n, hn⟩ := Nat.exists_eq_succ_of_ne_zero hb
  simp only [ringOrder, hm, hn, Nat.succ_lt_succ_iff]

/-- Where the channels of `ended` stand after the entries below tag `k`, `ready` being those that isolation still has to end
without a retirement. -/
structure Arranged (s : State) (k : Nat) (ended : List Chan) (ready : Chan → Prop) : Prop where
  last : ∀ c ∈ ended, lastTag s c ≤ k
  above : ∀ d ∈ ended, lastTag s d ≠ 0 → ∀ b, ready b → d ≤ b
  cover : ∀ a ∈ ended, lastTag s a = 0 → ∃ d ∈ ended, lastTag s d ≠ 0 ∧ a < d
  sorted : ended.Pairwise (ringOrder s ended)
  without : ∀ b, ready b → lastTag s b = 0

variable {ready : Chan → Prop}

theorem Arranged.later (h : Arranged s k ended ready) {ready' : Chan → Prop} (fewer : ∀ b, ready' b → ready b) :
    Arranged s (k + 1) ended ready' where
  last c mem := (h.last c mem).trans (Nat.le_succ k)
  above d mem last b isReady := h.above d mem last b (fewer b isReady)
  cover := h.cover
  sorted := h.sorted
  without b isReady := h.without b (fewer b isReady)

/-- Channels that are ended by later retirements do not move those that stand already. -/
theorem ringOrder_of_more {a b : Chan} (more : ended ⊆ all) (new : ∀ d ∈ all, d ∉ ended → lastTag s d ≠ 0 → k < lastTag s d)
    (ha : lastTag s a ≤ k) (h : ringOrder s ended a b) : ringOrder s all a b := by
  by_cases za : lastTag s a = 0
  · by_cases zb : lastTag s b = 0
    · rwa [ringOrder_iff_lt za zb] at h ⊢
    · rw [ringOrder_iff_below za zb] at h ⊢
      obtain ⟨d, mem, rest⟩ := h
      exact ⟨d, more mem, rest⟩
  · by_cases zb : lastTag s b = 0
    · rw [ringOrder_iff_not_below za zb] at h ⊢
      rintro ⟨d, mem, some, le, lt⟩
      have known : d ∈ ended := by_contra fun isNew => by
        have := new d mem isNew some
        omega
      exact h ⟨d, known, some, le, lt⟩
    · rwa [ringOrder_iff_last za zb] at h ⊢

/-- Ready channels join in increasing number, behind all that stand already. -/
theorem Arranged.joined (h : Arranged s k ended ready) (rising : batch.Pairwise (· < ·)) (isReady : ∀ b ∈ batch, ready b)
    (more : ended ⊆ all) (new : ∀ d ∈ all, d ∉ ended → lastTag s d ≠ 0 → k < lastTag s d) :
    (ended ++ batch).Pairwise (ringOrder s all) := by
  refine List.pairwise_append.2 ⟨h.sorted.imp_of_mem fun ha _ => ringOrder_of_more more new (h.last _ ha),
    rising.imp_of_mem fun ha hb lt => ?_, fun a ha b hb => ?_⟩
  · exact (ringOrder_iff_lt (h.without _ (isReady _ ha)) (h.without _ (isReady _ hb))).2 lt
  · have zb := h.without b (isReady b hb)
    by_cases za : lastTag s a = 0
    · obtain ⟨d, mem, some, lt⟩ := h.cover a ha za
      exact (ringOrder_iff_lt za zb).2 (lt_of_lt_of_le lt (h.above d mem some b (isReady b hb)))
    · rw [ringOrder_iff_not_below za zb]
      rintro ⟨d, mem, some, le, lt⟩
      have known : d ∈ ended := by_contra fun isNew => by
        have := new d mem isNew some
        have := h.last a ha
        omega
      exact absurd lt (not_lt_of_ge (h.above d known some b (isReady b hb)))

/-- A retirement at tag `k` ends channel `c`, behind the ready channels below it. -/
theorem Arranged.retired (h : Arranged s k ended ready) (rising : batch.Pairwise (· < ·)) (isReady : ∀ b ∈ batch, ready b)
    (below : ∀ b ∈ batch, b < c) (last : lastTag s c = k + 1) {ready' : Chan → Prop}
    (fewer : ∀ b, ready' b → ready b ∧ c ≤ b) : Arranged s (k + 1) (ended ++ batch ++ [c]) ready' := by
  have mem {x : Chan} (hx : x ∈ ended ++ batch ++ [c]) : x ∈ ended ∨ x ∈ batch ∨ x = c := by simpa [or_assoc] using hx
  have own : c ∈ ended ++ batch ++ [c] := by simp
  have some : lastTag s c ≠ 0 := by omega
  have more : ended ⊆ ended ++ batch ++ [c] := fun x hx => by simp [hx]
  have new : ∀ d ∈ ended ++ batch ++ [c], d ∉ ended → lastTag s d ≠ 0 → k < lastTag s d := fun d hd isNew last' => by
    rcases mem hd with known | b | rfl
    · exact absurd known isNew
    · exact absurd (h.without d (isReady d b)) last'
    · omega
  refine ⟨fun x hx => ?_, fun d hd last' b isReady' => ?_, fun a ha za => ?_, List.pairwise_append.2
    ⟨h.joined rising isReady more new, List.pairwise_singleton _ _, fun a ha b hb => ?_⟩, fun b isReady' =>
      h.without b (fewer b isReady').1⟩
  · rcases mem hx with known | b | rfl
    · exact (h.last x known).trans (Nat.le_succ k)
    · rw [h.without x (isReady x b)]
      exact Nat.zero_le _
    · exact last.le
  · rcases mem hd with known | inBatch | rfl
    · exact h.above d known last' b (fewer b isReady').1
    · exact absurd (h.without d (isReady d inBatch)) last'
    · exact (fewer b isReady').2
  · rcases mem ha with known | inBatch | rfl
    · obtain ⟨d, hd, rest⟩ := h.cover a known za
      exact ⟨d, more hd, rest⟩
    · exact ⟨c, own, some, below a inBatch⟩
    · exact absurd za some
  · obtain rfl := List.mem_singleton.1 hb
    rcases List.mem_append.1 ha with known | inBatch
    · by_cases za : lastTag s a = 0
      · obtain ⟨d, hd, last', lt⟩ := h.cover a known za
        have := h.last d hd
        exact (ringOrder_iff_below za some).2 ⟨d, more hd, last', by omega, lt⟩
      · have := h.last a known
        exact (ringOrder_iff_last za some).2 (by omega)
    · exact (ringOrder_iff_below (h.without a (isReady a inBatch)) some).2 ⟨b, own, some, le_rfl, below a inBatch⟩

/-! ## The entries, in the order of their tags (R146, R147) -/

/-- The channels that are draining do so by isolation: STOPPING, their fault ISOLATED. -/
def DrainsIsolated (h : State) : Prop := ∀ c, (h.chan c).state = .draining →
  (h.chan c).flag = .stopping ∧ (h.chan c).fault.map (fun f => (f.code, f.piece)) = some (.isolated, none)

/-- From the halted state `h`, the entries below tag `k` are settled, and the channels of `ended` have ended. -/
structure Progress (h u : State) (k : Nat) (ended : List Chan) : Prop where
  isolating : Isolating u
  own : u.marks.own = h.marks.own
  queue : ringQueue u = ringQueue h ++ ended
  writing : h.ring.inProgress ≠ none → u.ring.inProgress = h.ring.inProgress
  entry : ∀ v : Tag, k ≤ v.val → u.entry v = h.entry v
  live : ∀ c, c ∉ ended → Emptying (h.chan c) (u.chan c)
  gone : ∀ c ∈ ended, ∃ y, Emptying (h.chan c) y ∧ y.endsIsolated = true ∧ u.chan c = endedChan c y
  arranged : Arranged h k ended fun c => (u.chan c).endsIsolated = true

/-- Nothing that the entries before tag `k` decide depends on an entry that is left in use or FREE. -/
theorem Progress.pass (p : Progress h u k ended) (isolating : Isolating w) (chan : ∀ c, w.chan c = u.chan c)
    (own : w.marks.own = u.marks.own) (ring : w.ring = u.ring) (entry : ∀ v : Tag, k < v.val → w.entry v = u.entry v) :
    Progress h w (k + 1) ended where
  isolating := isolating
  own := own.trans p.own
  queue := by rw [ringQueue, ring]; exact p.queue
  writing busy := by rw [ring]; exact p.writing busy
  entry v le := (entry v le).trans (p.entry v (Nat.le_of_succ_le le))
  live c notEnded := by rw [chan]; exact p.live c notEnded
  gone c mem := by rw [chan]; exact p.gone c mem
  arranged := p.arranged.later fun b ready => by rwa [chan] at ready

/-- An entry retires, as isolation sees it. -/
theorem retire_chan {v : Tag} {e : Entry} (entry : u.entry v = some e) (o : PieceOutcome) (d : Chan) :
    (u.retire v o).chan d = if e.chan = d then (u.chan e.chan).applyOutcome o e.piece e.peer else u.chan d := by
  rw [retire_eq entry, State.retestReady_chan, State.chan_setChan]
  rfl

theorem retire_marks_ring (u : State) (v : Tag) (o : PieceOutcome) :
    (u.retire v o).marks = u.marks ∧ (u.retire v o).ring = u.ring := ⟨by simp, by simp⟩

/-- Of a channel with an entry, in the midst of isolation. -/
structure Draining (h u : State) (ended : List Chan) (c : Chan) : Prop where
  notEnded : c ∉ ended
  state : (u.chan c).state = .draining
  flag : (u.chan c).flag ≠ .none
  faulted : (u.chan c).fault.isSome = true
  owns : (u.chan c).owned ≠ 0

theorem Progress.draining (p : Progress h u k ended) (drains : DrainsIsolated h) {v : Tag} {e : Entry}
    (entry : u.entry v = some e) : Draining h u ended e.chan := by
  have owns : (u.chan e.chan).owned ≠ 0 := by
    rw [p.isolating.owned]
    exact Nat.ne_of_gt (List.countP_pos_iff.2 ⟨v, PeerBus.mem_allTags v, by simp [entry]⟩)
  have state : (u.chan e.chan).state = .draining := by_contra fun other =>
    owns (p.isolating.atRest e.chan (p.isolating.halted e.chan).2 other)
  have notEnded : e.chan ∉ ended := fun mem => by
    obtain ⟨y, -, -, gone⟩ := p.gone e.chan mem
    rw [gone] at state
    cases state
  have emptying := p.live e.chan notEnded
  obtain ⟨flag, fault⟩ := drains e.chan (emptying.state.symm.trans state)
  refine ⟨notEnded, state, by rw [emptying.flag, flag]; decide, ?_, owns⟩
  rw [← emptying.fault] at fault
  cases none : (u.chan e.chan).fault with
  | none => rw [none] at fault; cases fault
  | some f => rfl

variable {v : Tag} {e : Entry}

theorem endsIsolated_iff_of_draining {ch : Channel} (h : ch.state = .draining) : ch.endsIsolated = true ↔ ch.owned = 0 := by
  simp [Channel.endsIsolated, h]

/-- The retirement leaves its channel an entry. -/
theorem Progress.retire_more (p : Progress h u v.val ended) (entry : u.entry v = some e) (busy : Draining h u ended e.chan)
    (more : ¬ (u.chan e.chan).owned ≤ 1) (o : PieceOutcome) :
    Progress h (((u.endIsolatedBelow e.chan).retire v o).endIsolated e.chan) (v.val + 1) ended := by
  have chan := retire_chan entry o
  obtain ⟨marks, ring⟩ := retire_marks_ring u v o
  obtain ⟨emptying, owned⟩ := (p.live e.chan busy.notEnded).applyOutcome busy.flag busy.faulted busy.owns o e.piece e.peer
  have own : (u.retire v o).chan e.chan = (u.chan e.chan).applyOutcome o e.piece e.peer := (chan e.chan).trans (if_pos rfl)
  have other (d : Chan) (ne : e.chan ≠ d) : (u.retire v o).chan d = u.chan d := (chan d).trans (if_neg ne)
  have state : ((u.retire v o).chan e.chan).state = .draining := by
    rw [own, emptying.state, ← (p.live e.chan busy.notEnded).state, busy.state]
  have notEnds : ¬ ((u.retire v o).chan e.chan).endsIsolated = true := by
    rw [endsIsolated_iff_of_draining state, own, owned]
    omega
  have effect : ((u.endIsolatedBelow e.chan).retire v o).endIsolated e.chan = u.retire v o := by
    rw [State.endIsolatedBelow, if_neg more, State.endIsolated, if_neg notEnds]
  rw [effect]
  exact {
    isolating := p.isolating.retire v o
    own := by rw [marks]; exact p.own
    queue := by rw [ringQueue, ring]; exact p.queue
    writing := fun begun => by rw [ring]; exact p.writing begun
    entry := fun t le =>
      (retire_entry_of_ne u (Fin.ne_of_gt (Nat.lt_of_succ_le le)) o).trans (p.entry t (Nat.le_of_succ_le le))
    live := fun c notEnded => by
      by_cases same : e.chan = c
      · subst same; rwa [own]
      · rw [other c same]; exact p.live c notEnded
    gone := fun c mem => by
      rw [other c fun same => busy.notEnded (same ▸ mem)]
      exact p.gone c mem
    arranged := p.arranged.later fun b ready => by
      by_cases same : e.chan = b
      · subst same; exact absurd ready notEnds
      · rwa [other b same] at ready }

/-- Of a channel that owns one entry more, the entry at hand is the last (R147). -/
theorem Progress.lastTag_eq (p : Progress h u v.val ended) (entry : u.entry v = some e)
    (one : (u.chan e.chan).owned ≤ 1) : lastTag h e.chan = v.val + 1 := by
  have here : (h.entry v).map (·.chan) = some e.chan := by rw [← p.entry v le_rfl, entry]; rfl
  have noMore : entriesOf (u.setEntry v none) e.chan = 0 := by
    have counted := entriesOf_setEntry u v none e.chan
    rw [entry, ← p.isolating.owned] at counted
    simp at counted
    omega
  refine Nat.le_antisymm ((lastTag_le_iff h e.chan _).2 fun t held => ?_) ?_
  · by_contra later
    have notLess : v.val < t.val := by omega
    rw [← p.entry t notLess.le] at held
    have counts := List.countP_eq_zero.1 noMore t (PeerBus.mem_allTags t)
    rw [State.entry_setEntry_of_ne u (Fin.ne_of_lt notLess), held] at counts
    simp at counts
  · by_contra before
    exact lt_irrefl _ ((lastTag_le_iff h e.chan v.val).1 (by omega) v here)

/-- The retirement is the last of its channel: the ready channels below end first, then the channel (R126, R166). -/
theorem Progress.retire_last (p : Progress h u v.val ended) (entry : u.entry v = some e) (busy : Draining h u ended e.chan)
    (one : (u.chan e.chan).owned ≤ 1) (o : PieceOutcome) :
    ∃ ended', Progress h (((u.endIsolatedBelow e.chan).retire v o).endIsolated e.chan) (v.val + 1) ended' := by
  let below := (allChans.filter fun d => d < e.chan).filter fun d => (u.chan d).endsIsolated
  have rising : below.Pairwise (· < ·) := List.Pairwise.filter _ (List.Pairwise.filter _ (by decide))
  have mem_below (d : Chan) : d ∈ below ↔ d < e.chan ∧ (u.chan d).endsIsolated = true := by
    simp [below, Descriptors.mem_allChans, and_comm]
  have first : EndedBy u (u.endIsolatedBelow e.chan) below := by
    rw [State.endIsolatedBelow, if_pos one]
    exact endedBy_foldl (List.Nodup.filter _ (by decide)) u
  generalize u.endIsolatedBelow e.chan = w at first
  have entryNow : w.entry v = some e := (first.entry v).trans entry
  obtain ⟨marks, ring⟩ := retire_marks_ring w v o
  obtain ⟨emptying, owned⟩ := (p.live e.chan busy.notEnded).applyOutcome busy.flag busy.faulted busy.owns o e.piece e.peer
  have ownBefore : w.chan e.chan = u.chan e.chan := by
    rw [first.chan, if_neg fun mem => lt_irrefl _ ((mem_below _).1 mem).1]
  have own : (w.retire v o).chan e.chan = (u.chan e.chan).applyOutcome o e.piece e.peer := by
    rw [retire_chan entryNow, if_pos rfl, ownBefore]
  have ends : ((w.retire v o).chan e.chan).endsIsolated = true := by
    have state : ((w.retire v o).chan e.chan).state = .draining := by
      rw [own, emptying.state, ← (p.live e.chan busy.notEnded).state, busy.state]
    rw [endsIsolated_iff_of_draining state, own, owned]
    omega
  have last := endedBy_endIsolated (w.retire v o) e.chan
  rw [if_pos ends] at last
  generalize (w.retire v o).endIsolated e.chan = x at last
  have chan (d : Chan) : x.chan d = if d = e.chan then endedChan d ((u.chan e.chan).applyOutcome o e.piece e.peer)
      else if d ∈ below then endedChan d (u.chan d) else u.chan d := by
    rw [last.chan]
    by_cases same : d = e.chan
    · subst same
      rw [if_pos (List.mem_singleton_self _), if_pos rfl, own]
    · rw [if_neg fun mem => same (List.mem_singleton.1 mem), if_neg same, retire_chan entryNow, if_neg (Ne.symm same),
        first.chan]
  have notBelow {d : Chan} (mem : d ∈ ended) : d ∉ below := fun ready => by
    obtain ⟨y, -, -, gone⟩ := p.gone d mem
    have := ((mem_below d).1 ready).2
    rw [gone] at this
    cases this
  have mem {d : Chan} : d ∈ ended ++ below ++ [e.chan] ↔ d ∈ ended ∨ d ∈ below ∨ d = e.chan := by simp
  refine ⟨ended ++ below ++ [e.chan], ?_⟩
  exact {
    isolating := last.isolating ((first.isolating p.isolating).retire v o)
    own := by rw [last.own, marks, first.own, p.own]
    queue := by rw [last.queue, ringQueue, ring, ← ringQueue, first.queue, p.queue]; simp
    writing := fun begun => by
      have same := p.writing begun
      have now := (first.writing (by rw [same]; exact begun)).trans same
      rw [last.writing (by rw [ring, now]; exact begun), ring, now]
    entry := fun t le => by
      rw [last.entry, retire_entry_of_ne w (Fin.ne_of_gt (Nat.lt_of_succ_le le)) o, first.entry]
      exact p.entry t (Nat.le_of_succ_le le)
    live := fun d notEnded => by
      obtain ⟨notBefore, notReady, other⟩ := by simpa only [mem, not_or] using notEnded
      rw [chan, if_neg other, if_neg notReady]
      exact p.live d notBefore
    gone := fun d isEnded => by
      rw [chan]
      rcases mem.1 isEnded with before | ready | rfl
      · have other : d ≠ e.chan := fun same => busy.notEnded (same ▸ before)
        rw [if_neg other, if_neg (notBelow before)]
        exact p.gone d before
      · have notEnded : d ∉ ended := fun before => notBelow before ready
        rw [if_neg (Fin.ne_of_lt ((mem_below d).1 ready).1), if_pos ready]
        exact ⟨u.chan d, p.live d notEnded, ((mem_below d).1 ready).2, rfl⟩
      · rw [if_pos rfl]
        exact ⟨_, emptying, own ▸ ends, rfl⟩
    arranged := p.arranged.retired rising (fun b ready => ((mem_below b).1 ready).2)
      (fun b ready => ((mem_below b).1 ready).1) (p.lastTag_eq entry one) fun b ready => by
        rw [chan] at ready
        split at ready
        · cases ready
        split at ready
        · cases ready
        · rename_i notReady
          exact ⟨ready, le_of_not_gt fun lt => notReady ((mem_below b).2 ⟨lt, ready⟩)⟩ }

/-- Isolation settles the entry at tag `v` (R146). -/
theorem Progress.isolateEntry (p : Progress h u v.val ended) (drains : DrainsIsolated h) :
    ∃ ended', Progress h (u.isolateEntry v) (v.val + 1) ended' := by
  unfold State.isolateEntry
  split
  · exact ⟨ended, p.pass p.isolating (fun _ => rfl) rfl rfl fun _ _ => rfl⟩
  rename_i e entry
  have busy := p.draining drains entry
  have retires (o : PieceOutcome) :
      ∃ ended', Progress h (((u.endIsolatedBelow e.chan).retire v o).endIsolated e.chan) (v.val + 1) ended' := by
    by_cases one : (u.chan e.chan).owned ≤ 1
    · exact p.retire_last entry busy one o
    · exact ⟨ended, p.retire_more entry busy one o⟩
  split
  case h_4 =>
    have isolating : Isolating (u.setEntry v (some { e with retireReason := some .isolated })) :=
      ⟨(sameTable_setEntry entry).kept p.isolating.toTableBooks, p.isolating.halted⟩
    exact ⟨ended, p.pass isolating (fun _ => rfl) rfl rfl fun t lt => State.entry_setEntry_of_ne u (Fin.ne_of_lt lt) _⟩
  case h_5 => exact ⟨ended, p.pass p.isolating (fun _ => rfl) rfl rfl fun _ _ => rfl⟩
  all_goals exact retires _

/-- Isolation settles all entries, in the order of their tags. -/
theorem progress_entries (isolating : Isolating h) (drains : DrainsIsolated h)
    (without : ∀ b, (h.chan b).endsIsolated = true → lastTag h b = 0) :
    ∃ ended, Progress h (allTags.foldl State.isolateEntry h) 16 ended := by
  have start : Progress h h 0 [] := {
    isolating
    own := rfl
    queue := (List.append_nil _).symm
    writing := fun _ => rfl
    entry := fun _ _ => rfl
    live := fun c _ => .refl _
    gone := nofun
    arranged := ⟨nofun, nofun, nofun, List.Pairwise.nil, without⟩ }
  have upTo (n : Nat) (le : n ≤ 16) : ∃ ended, Progress h ((allTags.take n).foldl State.isolateEntry h) n ended := by
    induction n with
    | zero => exact ⟨[], start⟩
    | succ n ih =>
      obtain ⟨ended, p⟩ := ih (Nat.le_of_succ_le le)
      have next : ∀ v : Tag, allTags.take (v.val + 1) = allTags.take v.val ++ [v] := by decide
      rw [next ⟨n, le⟩, List.foldl_append]
      exact Progress.isolateEntry (v := ⟨n, le⟩) p drains
  exact upTo 16 le_rfl

end Sys2Proof.IsolationOrder
end

section
/-! SUPPORT. What isolation leaves of the channels and of the ring wait list (R126, R146, R147, R166). -/
namespace Sys2Proof.IsolationOrder

open Sys2Proof Sys2Proof.Machine Sys2Proof.Safety Isolation Channels

-- Each thread of the elaborator reserves 1 GB under the memory limit of the check.
set_option Elab.async false

variable {s t : State} {c : Chan} {ch y : Channel} {ended : List Chan}

/-! ## The fault of isolation (R105, R106, R126) -/

/-- The fault record of a channel that raises ISOLATED. -/
def isolatedRecord (ch : Channel) : FaultRecord :=
  { code := .isolated, piece := none, peer := none, addr := ch.addr.getD 0
    further := match ch.fault with
      | none => 0
      | some f => if f.further < 255 then f.further + 1 else 255 }

theorem channelFault_isolated (ch : Channel) :
    Channel.channelFault ch .isolated none = { ch with fault := some (isolatedRecord ch) } := by
  unfold Channel.channelFault isolatedRecord
  cases ch.fault with
  | none => rfl
  | some f =>
    have further : f.more.further = if f.further < 255 then f.further + 1 else 255 := by
      change min 255 (f.further + 1) = _
      split <;> omega
    simp only [FaultCode.takesPlace, if_true, further]

theorem isolateBusy_eq (ch : Channel) : ch.isolateBusy = { ch with
    fault := some (isolatedRecord ch), flag := .stopping
    state := if ch.state = .running then .draining else ch.state } := by
  rw [Channel.isolateBusy, channelFault_isolated]

theorem haltedChan_state (ch : Channel) : (haltedChan ch).state = if ch.state = .running then .draining else ch.state := by
  cases state : ch.state with
  | idle => rw [haltedChan_of_atRest (.inl state), state]; rfl
  | faulted => rw [haltedChan_of_atRest (.inr state), state]; rfl
  | waiting => rw [haltedChan_of_waiting state, channelFault_isolated]; exact state
  | completing => rw [haltedChan_of_completing state]; exact state
  | fetching | running | draining => rw [haltedChan_of_busy (by simp [state]), isolateBusy_eq, state]

theorem haltedChan_owned (ch : Channel) : (haltedChan ch).owned = ch.owned := by
  cases state : ch.state with
  | idle => rw [haltedChan_of_atRest (.inl state)]
  | faulted => rw [haltedChan_of_atRest (.inr state)]
  | waiting => rw [haltedChan_of_waiting state, channelFault_isolated]
  | completing => rw [haltedChan_of_completing state]
  | fetching | running | draining => rw [haltedChan_of_busy (by simp [state]), isolateBusy_eq]

theorem drainsIsolated_halted (s : State) : DrainsIsolated (halted s) := by
  obtain ⟨x, w, -, chan⟩ := halted_eq s
  intro c draining
  rw [chan, haltedChan_state] at draining
  rw [chan, haltedChan_of_busy, isolateBusy_eq]
  · exact ⟨rfl, rfl⟩
  · split at draining
    · exact .inr (.inl ‹_›)
    · exact .inr (.inr draining)

/-! ## The whole isolation -/

/-- A channel that isolation ends is WAITING or DRAINING, and owns no entry. -/
theorem owned_of_endsIsolated (isolating : Isolating s) (ends : (s.chan c).endsIsolated = true) : (s.chan c).owned = 0 := by
  cases state : (s.chan c).state with
  | draining => exact (endsIsolated_iff_of_draining state).1 ends
  | running => exact absurd state (isolating.halted c).2
  | idle | fetching | waiting | completing | faulted =>
    exact isolating.atRest c (by rw [state]; decide) (by rw [state]; decide)

theorem lastTag_of_owned (books : TableBooks s) (none : (s.chan c).owned = 0) : lastTag s c = 0 := by
  refine Nat.le_zero.1 ((lastTag_le_iff s c 0).2 fun v held => ?_)
  rw [books.owned] at none
  exact absurd held (by simpa using List.countP_eq_zero.1 none v (PeerBus.mem_allTags v))

/-- What isolation leaves of channels and ring, `ended` being the channels that it ends, in their order. -/
structure Outcome (s t : State) (ended : List Chan) : Prop where
  own : t.marks.own = s.marks.own
  waits : ∀ c, t.waitOf c = none
  queue : ringQueue t = ringQueue s ++ ended
  writing : s.ring.inProgress ≠ none → t.ring.inProgress = s.ring.inProgress
  live : ∀ c, c ∉ ended → Emptying (haltedChan (s.chan c)) (t.chan c) ∧ ¬ (t.chan c).endsIsolated = true
  gone : ∀ c ∈ ended, ∃ y, Emptying (haltedChan (s.chan c)) y ∧ y.endsIsolated = true ∧ t.chan c = endedChan c y
  sorted : ended.Pairwise (ringOrder s ended)

theorem outcome_isolate (books : TableBooks s) : ∃ ended, Outcome s s.isolate ended := by
  obtain ⟨x, w, frame, chanHalted⟩ := halted_eq s
  have isolating := isolating_halted books
  have order : ringOrder (halted s) = ringOrder s := by rw [frame]; rfl
  obtain ⟨ended, p⟩ := progress_entries isolating (drainsIsolated_halted s) fun b ends =>
    lastTag_of_owned isolating.toTableBooks (owned_of_endsIsolated isolating ends)
  change Progress (halted s) (entriesEnded s) 16 ended at p
  let rest := allChans.filter fun c => ((entriesEnded s).chan c).endsIsolated
  have mem_rest (c : Chan) : c ∈ rest ↔ ((entriesEnded s).chan c).endsIsolated = true := by
    simp [rest, Descriptors.mem_allChans]
  have last : EndedBy (entriesEnded s) (channelsEnded s) rest := endedBy_foldl (by decide) _
  have endedNow := last.isolating p.isolating
  have noneLeft (c : Chan) : ¬ ((channelsEnded s).chan c).endsIsolated = true := by
    rw [last.chan]
    split
    · exact nofun
    · exact mt (mem_rest c).2 ‹_›
  have settled := settled_settle endedNow.halted noneLeft (still_channelsEnded s).off
  rw [← isolate_eq] at settled
  have chan (c : Chan) : s.isolate.chan c = (channelsEnded s).chan c := by rw [State.chan, settled.channels]; rfl
  have ringHalted : (halted s).ring = s.ring := by rw [frame, cutOff]
  have apart {c : Chan} (mem : c ∈ ended) : c ∉ rest := fun ready => by
    obtain ⟨y, -, -, gone⟩ := p.gone c mem
    have := (mem_rest c).1 ready
    rw [gone] at this
    cases this
  refine ⟨ended ++ rest, ?_⟩
  exact {
    own := by rw [settled.marks, last.own, p.own, frame, cutOff]
    waits := fun c => by
      rw [State.waitOf, settled.marks]
      exact (endedNow.halted c).1
    queue := by
      rw [settled.ring.queue, last.queue, p.queue, List.append_assoc, ringQueue, ringQueue, ringHalted]
    writing := fun begun => by
      have same := p.writing (by rw [ringHalted]; exact begun)
      rw [ringHalted] at same
      have now := (last.writing (by rw [same]; exact begun)).trans same
      exact (settled.ring.writing (by rw [now]; exact begun)).trans now
    live := fun c notEnded => by
      obtain ⟨notBefore, notRest⟩ := not_or.1 (mt List.mem_append.2 notEnded)
      refine ⟨?_, by rw [chan]; exact noneLeft c⟩
      rw [chan, last.chan, if_neg notRest, ← chanHalted]
      exact p.live c notBefore
    gone := fun c mem => by
      rw [chan, last.chan, ← chanHalted]
      rcases List.mem_append.1 mem with before | ready
      · rw [if_neg (apart before)]
        exact p.gone c before
      · rw [if_pos ready]
        exact ⟨_, p.live c fun before => apart before ready, (mem_rest c).1 ready, rfl⟩
    sorted := by
      rw [← order]
      refine p.arranged.joined (List.Pairwise.filter _ (by decide)) (fun b ready => (mem_rest b).1 ready)
        (List.subset_append_left ..) fun d mem isNew last' => ?_
      exact absurd (p.arranged.without d ((mem_rest d).1 ((List.mem_append.1 mem).resolve_left isNew))) last' }

/-! ## Each channel state (R126) -/

/-- A channel that owned no entry and that isolation does not end. -/
theorem Outcome.chan_of_stays (o : Outcome s t ended) (none : (s.chan c).owned = 0)
    (stays : ¬ (haltedChan (s.chan c)).endsIsolated = true) : t.chan c = haltedChan (s.chan c) := by
  have owned : (haltedChan (s.chan c)).owned = 0 := (haltedChan_owned _).trans none
  have notEnded : c ∉ ended := fun mem => by
    obtain ⟨y, emptying, ends, -⟩ := o.gone c mem
    exact stays (emptying.whole owned ▸ ends)
  exact (o.live c notEnded).1.whole owned

/-- A channel in IDLE, FAULTED, FETCHING or COMPLETING is only halted. -/
theorem Outcome.chan_of_quiet (o : Outcome s t ended) (books : TableBooks s) {st : ChanState} (state : (s.chan c).state = st)
    (quiet : st ≠ .running ∧ st ≠ .draining ∧ st ≠ .waiting) : t.chan c = haltedChan (s.chan c) := by
  obtain ⟨notRunning, notDraining, notWaiting⟩ := quiet
  refine o.chan_of_stays (books.atRest c (state ▸ notRunning) (state ▸ notDraining)) fun ends => ?_
  have halted : (haltedChan (s.chan c)).state = st := by rw [haltedChan_state, state, if_neg notRunning]
  unfold Channel.endsIsolated at ends
  rw [halted] at ends
  split at ends
  · exact notWaiting rfl
  · exact notRunning rfl
  · exact notDraining rfl
  all_goals cases ends

/-- A channel that owned no entry and that isolation ends. -/
theorem Outcome.chan_of_ends (o : Outcome s t ended) (none : (s.chan c).owned = 0)
    (ends : (haltedChan (s.chan c)).endsIsolated = true) : t.chan c = endedChan c (haltedChan (s.chan c)) := by
  have owned : (haltedChan (s.chan c)).owned = 0 := (haltedChan_owned _).trans none
  have mem : c ∈ ended := by_contra fun notEnded => by
    obtain ⟨emptying, stays⟩ := o.live c notEnded
    exact stays (emptying.whole owned ▸ ends)
  obtain ⟨y, emptying, -, gone⟩ := o.gone c mem
  rw [gone, emptying.whole owned]

/-- A channel that was RUNNING or DRAINING drains until it owns no entry. -/
theorem Outcome.chan_of_draining (o : Outcome s t ended) (draining : (haltedChan (s.chan c)).state = .draining) :
    ∃ y, Emptying (haltedChan (s.chan c)) y ∧
      (y.owned ≠ 0 ∧ t.chan c = y ∨ y.owned = 0 ∧ t.chan c = endedChan c y) := by
  by_cases mem : c ∈ ended
  · obtain ⟨y, emptying, ends, gone⟩ := o.gone c mem
    exact ⟨y, emptying, .inr ⟨(endsIsolated_iff_of_draining (emptying.state.trans draining)).1 ends, gone⟩⟩
  · obtain ⟨emptying, stays⟩ := o.live c mem
    exact ⟨t.chan c, emptying, .inl ⟨mt (endsIsolated_iff_of_draining (emptying.state.trans draining)).2 stays, rfl⟩⟩

theorem Outcome.mem_iff (o : Outcome s t ended) :
    c ∈ ended ↔ (s.chan c).state ≠ .completing ∧ (t.chan c).state = .completing := by
  have completing : (haltedChan (s.chan c)).state = .completing ↔ (s.chan c).state = .completing := by
    rw [haltedChan_state]
    split
    · rename_i running
      rw [running]
      decide
    · exact Iff.rfl
  constructor
  · intro mem
    obtain ⟨y, emptying, ends, gone⟩ := o.gone c mem
    refine ⟨fun before => ?_, by rw [gone]; rfl⟩
    have state := emptying.state.trans (completing.2 before)
    simp [Channel.endsIsolated, state] at ends
  · rintro ⟨before, now⟩
    by_contra notEnded
    exact before (completing.1 ((o.live c notEnded).1.state.symm.trans now))

/-- Settles O25: the blocks that R14 clears, and the channels and the ring by the invariant over the tags. -/
theorem isolationTakesTheStationOffTheBus : Obligations.IsolationTakesTheStationOffTheBus := by
  constructor
  · intro s
    dsimp only
    have blocks := isolate_blocks s
    have ring := (still_isolate s).stays.own.ring
    refine ⟨offTheBus_isolate s, by rw [blocks.host]; rfl, blocks.latch, by rw [blocks.station]; rfl, ring.config,
      ring.producer, ring.consumer, blocks.written, by rw [blocks.host]; rfl, isolate_window s, fun cur h => ?_⟩
    refine (isolate_current h).trans ?_
    cases cur.access.requester <;> rfl
  · intro s books t
    obtain ⟨ended, o⟩ : ∃ ended, Outcome s t ended := outcome_isolate books
    clear_value t
    refine ⟨o.own, ?_, o.writing, ended, o.queue, fun c => o.mem_iff, o.sorted⟩
    intro c ch further raised
    have raisedNow : isolatedRecord ch = raised := rfl
    refine ⟨fun atRest => ?_, fun fetching => ?_, fun waiting => ?_, fun completing => ?_, fun busy => ?_⟩
    · rw [← haltedChan_of_atRest atRest]
      rcases atRest with idle | faulted
      · exact o.chan_of_quiet books idle (by decide)
      · exact o.chan_of_quiet books faulted (by decide)
    · rw [o.chan_of_quiet books fetching (by decide), haltedChan_of_busy (.inl fetching), isolateBusy_eq, ← raisedNow,
        fetching]
      rfl
    · refine ⟨o.waits c, ?_⟩
      have halted := haltedChan_of_waiting waiting
      rw [channelFault_isolated, raisedNow] at halted
      have ended := o.chan_of_ends (books.atRest c (by rw [waiting]; decide) (by rw [waiting]; decide))
        (by rw [halted, Channel.endsIsolated, waiting])
      rw [halted] at ended
      exact ⟨_, ended, rfl, rfl⟩
    · rw [o.chan_of_quiet books completing (by decide), haltedChan_of_completing completing]
    · have halted := haltedChan_of_busy (.inr busy)
      rw [isolateBusy_eq] at halted
      have draining : (haltedChan ch).state = .draining := by
        rw [haltedChan_state]
        rcases busy with running | draining
        · rw [running]; rfl
        · rw [draining]; rfl
      obtain ⟨y, emptying, ⟨owns, now⟩ | ⟨none, now⟩⟩ := o.chan_of_draining draining
      all_goals
        have flag := emptying.flag
        have fault := emptying.fault
        rw [halted] at flag fault
        rw [now]
      · exact ⟨flag, fault, fun _ => emptying.state.trans draining, fun none => absurd none owns⟩
      · exact ⟨flag, fault, fun owns => absurd none owns, fun _ => ⟨rfl, rfl⟩⟩

end Sys2Proof.IsolationOrder
end
